-- ==== Sys2Proof/Word.lean ====
section
/-! DEFINITION. The word types of the CV2440: bytes, addresses and 32-bit counters, the eight byte lanes of a data
field, 16-bit counts, and the text of a console line. -/

namespace Sys2Proof

/-- A byte of the console line, of the preload stream or of a data lane. -/
abbrev Byte := BitVec 8

/-- A 32-bit byte address, or one of the 32-bit counters (arrival number, stamp, sequence number). -/
abbrev Word := BitVec 32

/-- The eight byte lanes of a data field read as one number, lane 0 least significant (R90, section 10.1). -/
abbrev Data := BitVec 64

/-- A 16-bit count: ticks, reload values, fire counts, use counts, the lost count. -/
abbrev Count := BitVec 16

/-- The characters of a console line or of a line the part sends, without its line end. -/
abbrev Text := List Char

/-- One token of a console line: a run of characters between spaces (R164). -/
abbrev Token := List Char

end Sys2Proof
end

