-- ==== Sys2Proof/Config.lean ====
section
/-! DEFINITION. The sizes and capacities that the manual fixes for the part, named once. The manual leaves no
value open that a command computes with, so there is no free value here. -/

namespace Sys2Proof.Config

/-- Room of the notice queue (R171). -/
abbrev noticeRoom : Nat := 16

/-- Room of the capture log (R99). -/
abbrev logRoom : Nat := 64

/-- Stored characters of one console or preload line (R159, R147). -/
abbrev lineRoom : Nat := 72

/-- Bytes a preload stream may hold, offsets 0 to FFFFh (R149). -/
abbrev streamLimit : Nat := 65536

/-- Ticks from the taking of `FR` to the negation of FAR_RESET (R25). -/
abbrev pulseTicks : Fin 3 := 2

/-- Far tag of slot M (section 1.3). -/
abbrev slotMTag : Nat := 16

/-- Far timeout parameter at power-on, 03E8h ticks (Table 7-3). -/
abbrev farTimeoutDefault : Count := 1000

/-- Longest positional operand (R166). -/
abbrev positionalRoom : Nat := 8

/-- Longest value of a keyword operand (R166). -/
abbrev valueRoom : Nat := 16

end Sys2Proof.Config
end

