-- ==== Sys2Proof/Syntax.lean ====
section
/-! DEFINITION. The commands of the CV2440: one constructor of `Instr` for each row of spec/opcode_table.json, with
the row's operands as the link transactions (section 10.1), the console line (chapter 8) and the pins (section
10.5) carry them. -/

namespace Sys2Proof

/-- The near tag of a request, 0 to 7 (Table 10-1). -/
abbrev NearTag := Fin 8

/-- A traffic slot number, equal to the far tag the slot uses (section 1.3). -/
abbrev SlotNo := Fin 16

/-- A watch entry number (section 2.1). -/
abbrev EntryNo := Fin 16

/-- A substitution record number (section 4.1). -/
abbrev RecordNo := Fin 8

/-- The access class of a request. -/
inductive AccClass where
  | fetch
  | load
  | store
deriving DecidableEq, Repr

/-- The size of an access or of a substitution record: 1, 2, 4 or 8 bytes. -/
inductive Size where
  | one
  | two
  | four
  | eight
deriving DecidableEq, Repr

/-- A near link request (Table 10-1). `lanes` are the eight write-data lanes; R190 says which of them are read. -/
structure NearRequest where
  tag   : NearTag
  cls   : AccClass
  addr  : Word
  size  : Size
  lanes : Data
deriving DecidableEq, Repr

/-- A far link response (Table 10-3): its far tag, 0 to 31, its status (`ok`, else ERROR) and its read-data lanes. -/
structure FarResponse where
  tag   : Fin 32
  ok    : Bool
  lanes : Data
deriving DecidableEq, Repr

/-- Console parity: none, even or odd (Table 7-3). -/
inductive Parity where
  | none
  | even
  | odd
deriving DecidableEq, Repr

/-- One character frame as the receiver found it on RX (R153, R154): the eight data bits, the level of the parity
bit (of no account with parity none), the level of the stop bit, and the parity in use when the start bit began if
that was not the parity now in use (R154, last sentence). -/
structure RxFrame where
  data      : Byte
  parityBit : Bool
  stopHigh  : Bool
  begunWith : Option Parity
deriving DecidableEq, Repr

/-- The pin levels sampled at the negation of POR_N (R193): the two straps and the two levels. -/
structure PowerOnPins where
  preloadEn : Bool
  baud      : BitVec 2
  trigger   : Bool
  nearReset : Bool
deriving DecidableEq, Repr

/-- Where a command line comes from: the console line or the preload stream. -/
inductive Source where
  | console
  | preload
deriving DecidableEq, Repr

/-- The commands of the block, one constructor per row of the opcode table. A verb's row is the arrival of the whole
line that spells it: its source and the operand tokens after the verb (notes/assumptions/6.md and 7.md). -/
inductive Instr where
  /-- ACCEPTANCE (R1): the requester offers a request. -/
  | acceptance (req : NearRequest)
  /-- DELIVERY (R11): the requester takes the offered near response. -/
  | delivery
  /-- ISSUE (R13): the far link can take a request. -/
  | issue
  /-- FAR_RESPONSE (R15): memory offers a far response. -/
  | farResponse (resp : FarResponse)
  /-- TICK (R120): a tick of the time base ends. -/
  | tick
  /-- FAR_TIMEOUT (R19): the expiry of a traffic slot's far timer is taken. -/
  | farTimeout (slot : SlotNo)
  /-- SLOT_M_FAR_TIMEOUT (R20): the expiry of slot M's far timer is taken. -/
  | slotMFarTimeout
  /-- EXPIRY (R69): the expiry of a held slot's hold timer is taken. -/
  | expiry (slot : SlotNo)
  /-- FAR_RESET_NEGATION (R25): the FAR_RESET pulse ends. -/
  | farResetNegation
  /-- NEAR_RESET_ASSERTION (R22). -/
  | nearResetAssertion
  /-- NEAR_RESET_NEGATION (R23). -/
  | nearResetNegation
  /-- POR_N_ASSERTION (R193). -/
  | porAssertion
  /-- POR_N_NEGATION (R133, R193). -/
  | porNegation (pins : PowerOnPins)
  /-- TRIGGER_RISING_EDGE (R35). -/
  | triggerRisingEdge
  /-- TRIGGER_FALLING_EDGE (R130). -/
  | triggerFallingEdge
  /-- CHARACTER (R154): the receiver takes a character frame. -/
  | character (frame : RxFrame)
  /-- BREAK (R156). -/
  | breakEvent
  /-- LINE_SENT (R175): the transmitter finishes sending a line. -/
  | lineSent
  /-- BYTE_EVENT (R147): the preload port has shifted in a byte. -/
  | byteEvent (byte : Byte)
  /-- `FR` (R24): far link reset. -/
  | fr (src : Source) (ops : List Token)
  /-- `TS` (R26): transit status listing. -/
  | ts (src : Source) (ops : List Token)
  /-- `WS` (R48): set a watch entry. -/
  | ws (src : Source) (ops : List Token)
  /-- `WR` (R49): set an entry's reload. -/
  | wr (src : Source) (ops : List Token)
  /-- `WA` (R50): arm an entry. -/
  | wa (src : Source) (ops : List Token)
  /-- `WD` (R51): disarm an entry. -/
  | wd (src : Source) (ops : List Token)
  /-- `WX` (R52): clear an entry. -/
  | wx (src : Source) (ops : List Token)
  /-- `WQ` (R53): report an entry. -/
  | wq (src : Source) (ops : List Token)
  /-- `HL` (R75): list the hold queue. -/
  | hl (src : Source) (ops : List Token)
  /-- `HR` (R76): release a held access. -/
  | hr (src : Source) (ops : List Token)
  /-- `HA` (R78): answer a held access. -/
  | ha (src : Source) (ops : List Token)
  /-- `HF` (R80): fail a held access. -/
  | hf (src : Source) (ops : List Token)
  /-- `RA` (R81): release all held accesses. -/
  | ra (src : Source) (ops : List Token)
  /-- `SS` (R97): set a substitution record. -/
  | ss (src : Source) (ops : List Token)
  /-- `SX` (R96): invalidate a substitution record. -/
  | sx (src : Source) (ops : List Token)
  /-- `SQ` (R98): report a substitution record. -/
  | sq (src : Source) (ops : List Token)
  /-- `LR` (R113): report a capture record. -/
  | lr (src : Source) (ops : List Token)
  /-- `LN` (R114): report and remove the oldest capture record. -/
  | ln (src : Source) (ops : List Token)
  /-- `LC` (R115): remove the closed capture records. -/
  | lc (src : Source) (ops : List Token)
  /-- `LM` (R116): set or report the log mode. -/
  | lm (src : Source) (ops : List Token)
  /-- `AK` (R127): acknowledge alerts. -/
  | ak (src : Source) (ops : List Token)
  /-- `GO` (R134): enter WATCH. -/
  | go (src : Source) (ops : List Token)
  /-- `BY` (R135): enter BYPASS. -/
  | byp (src : Source) (ops : List Token)
  /-- `FZ` (R136): freeze. -/
  | fz (src : Source) (ops : List Token)
  /-- `TH` (R137): thaw. -/
  | th (src : Source) (ops : List Token)
  /-- `CL` (R139): soft clear. -/
  | cl (src : Source) (ops : List Token)
  /-- `ST` (R145): status report. -/
  | st (src : Source) (ops : List Token)
  /-- `SP` (R142): set device parameters. -/
  | sp (src : Source) (ops : List Token)
  /-- `MA` (R179): set the memory cursor. -/
  | ma (src : Source) (ops : List Token)
  /-- `MR` (R182): read memory. -/
  | mr (src : Source) (ops : List Token)
  /-- `MW` (R182): write memory. -/
  | mw (src : Source) (ops : List Token)
deriving DecidableEq, Repr

end Sys2Proof
end

