-- ==== Sys2Proof/WellFormed.lean ====
section
/-! DEFINITION. When a command is well formed: a verb's operand tokens are ones that a line of at most 72 stored
characters can spell (R159, R164). Every other command's operands are well formed by their types. -/

namespace Sys2Proof

/-- A character a line slot stores, 20h to 7Eh (R159), other than the space that parts tokens (R164). -/
def tokenChar (c : Char) : Bool := 0x20 < c.toNat && c.toNat ≤ 0x7E

/-- A token a line can hold: not empty, and only characters that a token may hold. -/
def tokenOk (t : Token) : Bool := !t.isEmpty && t.all tokenChar

/-- The stored characters of the line: the two letters of the verb and each operand after one space. -/
def lineLength (ops : List Token) : Nat := 2 + (ops.map (fun t => 1 + t.length)).sum

/-- The operand tokens of a verb's row can be typed as one line. -/
def operandsOk (ops : List Token) : Bool := ops.all tokenOk && lineLength ops ≤ Config.lineRoom

/-- The operand tokens of a command: those of a verb's row, none for the other rows. -/
def Instr.tokens : Instr → List Token
  | .acceptance _ | .delivery | .issue | .farResponse _ | .tick | .farTimeout _ | .slotMFarTimeout | .expiry _
  | .farResetNegation | .nearResetAssertion | .nearResetNegation | .porAssertion | .porNegation _
  | .triggerRisingEdge | .triggerFallingEdge | .character _ | .breakEvent | .lineSent | .byteEvent _ => []
  | .fr _ ops | .ts _ ops | .ws _ ops | .wr _ ops | .wa _ ops | .wd _ ops | .wx _ ops | .wq _ ops
  | .hl _ ops | .hr _ ops | .ha _ ops | .hf _ ops | .ra _ ops | .ss _ ops | .sx _ ops | .sq _ ops
  | .lr _ ops | .ln _ ops | .lc _ ops | .lm _ ops | .ak _ ops | .go _ ops | .byp _ ops | .fz _ ops
  | .th _ ops | .cl _ ops | .st _ ops | .sp _ ops | .ma _ ops | .mr _ ops | .mw _ ops => ops

/-- A well-formed command: its operand tokens, if it has any, can be typed as one line. -/
def Instr.wellFormed (i : Instr) : Bool := operandsOk i.tokens

end Sys2Proof
end

