-- ==== Sys2Proof/Decode.lean ====
section
/-! DEFINITION. The command that a word of the opcode table spells. No row of spec/opcode_table.json gives bits (the
block takes events and text lines, not encoded words), so no word spells a command; the text of a command line is
read by Machine/Operands.lean. -/

namespace Sys2Proof

/-- No row of the table has an encoding, so every word spells no command. -/
def decodeTableWord (_nbits _w : Nat) : Option Instr := none

end Sys2Proof
end

