-- ==== Sys2Proof/Machine/State.lean ====
section
/-! DEFINITION. The state of the CV2440 as plain data, block by block as Table 0-1 lists them, its power-on value, and
the reasons for which a step may stop. -/

namespace Sys2Proof.Machine

/-! ## Transit table (chapter 1) -/

/-- The state of a traffic slot that is not FREE (Table 1-3). -/
inductive SlotState where
  | held
  | queued
  | issued
  | answering
  | orphan
deriving DecidableEq, Repr

/-- What was decided for an access at its acceptance (R7). -/
inductive Disposition where
  | forward
  | substitute
  | hold
  | align
deriving DecidableEq, Repr

/-- Why a slot is held (Table 3-1). -/
inductive HoldReason where
  | watch
  | freeze
  | order
deriving DecidableEq, Repr

/-- What an ORDER slot does when its blockers leave (Table 1-2). -/
inductive PendAction where
  | forward
  | substitute
deriving DecidableEq, Repr

/-- The fields of a traffic slot that is not FREE (Table 1-2). Timers and reasons are present as the table says; the
slot's response is its entry in the near response queue, kept there alone. -/
structure Access where
  state      : SlotState
  tag        : Option NearTag
  cls        : AccClass
  addr       : Word
  size       : Size
  data       : Option Data
  arrival    : Word
  disp       : Disposition
  owner      : Option EntryNo
  logSeq     : Option Word
  holdReason : Option HoldReason
  holdTimer  : Option Count
  pendAction : Option PendAction
  farTimer   : Option Count
deriving DecidableEq, Repr

/-- The state of slot M when it is not FREE (R6). -/
inductive MState where
  | queued
  | issued
  | orphan
deriving DecidableEq, Repr

/-- The fields of slot M when it is not FREE (R6): `cls` is LOAD for a read, STORE for a write. -/
structure MAccess where
  state    : MState
  cls      : AccClass
  addr     : Word
  size     : Size
  data     : Option Data
  farTimer : Option Count
deriving DecidableEq, Repr

/-- The transit table: the sixteen traffic slots (`none` is FREE), slot M (`none` is FREE), and the arrival counter. -/
structure Transit where
  slots    : Vector (Option Access) 16
  slotM    : Option MAccess
  arrivals : Word
deriving DecidableEq, Repr

/-! ## Near link port (chapter 1) -/

/-- Response reasons toward the near side (Table 1-4). -/
inductive Reason where
  | ok
  | fault
  | late
  | denied
  | align
  | abort
deriving DecidableEq, Repr

/-- An entry of the near response queue (R10). -/
structure RespEntry where
  tag    : NearTag
  reason : Reason
  data   : Option Data
  slot   : Option SlotNo
deriving DecidableEq, Repr

/-- A near link response as it passes the channel (Table 10-2, R190). -/
structure NearResponse where
  tag    : NearTag
  reason : Reason
  lanes  : Data
deriving DecidableEq, Repr

/-- The near link port: the near response queue, the NEAR_RESET level last seen (`true` asserted), and the model's
record of the item last passed on the response channel. -/
structure Near where
  responses    : List RespEntry
  reset        : Bool
  lastResponse : Option NearResponse
deriving DecidableEq, Repr

/-! ## Far link port and issue arbiter (chapter 1) -/

/-- The two contenders for the far link request channel (R13). -/
inductive Contender where
  | forwardQueue
  | slotM
deriving DecidableEq, Repr

/-- A far link request as it passes the channel (Table 10-3, R190): far tag 0 to 15 for a traffic slot, 16 for slot M. -/
structure FarRequest where
  tag   : Nat
  cls   : AccClass
  addr  : Word
  size  : Size
  lanes : Data
deriving DecidableEq, Repr

/-- The far link port: the forward queue, the last-winner mark, the FAR_RESET pulse (`none` negated, `some k` asserted
with k ticks to its negation), the responses that are still offered to a port that takes none, and the model's record of the
item last passed on the request channel. -/
structure Far where
  forward     : List SlotNo
  lastWinner  : Contender
  pulse       : Option (Fin 3)
  waiting     : List FarResponse
  lastRequest : Option FarRequest
deriving DecidableEq, Repr

/-! ## Watch unit (chapter 2) -/

/-- Watch entry states (Table 2-2). -/
inductive EntryState where
  | off
  | dormant
  | armed
  | spent
deriving DecidableEq, Repr

/-- Watch entry actions (Table 2-1). -/
inductive Action where
  | pass
  | note
  | subst
  | hold
  | freeze
deriving DecidableEq, Repr

/-- A set of access classes. -/
structure ClassSet where
  fetch : Bool
  load  : Bool
  store : Bool
deriving DecidableEq, Repr

/-- What arms a DORMANT entry: the firing of another entry, or TRIGGER. -/
inductive ArmSource where
  | entry (n : EntryNo)
  | trigger
deriving DecidableEq, Repr

/-- A data condition: value and mask (R31). -/
structure DataCond where
  value : Data
  mask  : Data
deriving DecidableEq, Repr

/-- A watch entry (Table 2-1). -/
structure WatchEntry where
  state         : EntryState
  base          : Word
  limit         : Word
  classes       : ClassSet
  cond          : Option DataCond
  action        : Option Action
  record        : Option RecordNo
  alert         : Bool
  once          : Bool
  armSource     : Option ArmSource
  remaining     : Count
  reload        : Count
  pendingReload : Option Count
  fires         : Count
deriving DecidableEq, Repr

/-- An OFF entry with the OFF values of Table 2-1 (R29). -/
def WatchEntry.offValue : WatchEntry where
  state         := .off
  base          := 0
  limit         := 0
  classes       := ⟨false, false, false⟩
  cond          := none
  action        := none
  record        := none
  alert         := false
  once          := false
  armSource     := none
  remaining     := 0
  reload        := 0
  pendingReload := none
  fires         := 0

/-! ## Substitution table (chapter 4) -/

/-- A substitution record (Table 4-1); its bytes are read as one number, least significant at the record address. -/
structure SubstRecord where
  valid : Bool
  addr  : Word
  size  : Size
  value : Data
  uses  : Count
deriving DecidableEq, Repr

/-- A record at power-on (R86). -/
def SubstRecord.powerOn : SubstRecord where
  valid := false
  addr  := 0
  size  := .one
  value := 0
  uses  := 0

/-! ## Capture log (chapter 5) -/

/-- By which path an access went to memory (R106). -/
inductive PathMark where
  | releasedByExpiry
  | substMiss
deriving DecidableEq, Repr

/-- Outcomes of a capture record (Table 5-1). -/
inductive RecordOutcome where
  | forwarded
  | substituted
  | substMiss
  | answered
  | failed
  | expiredReleased
  | expiredFailed
  | farTimeout
  | aborted
  | cleared
deriving DecidableEq, Repr

/-- A record is OPEN, perhaps with a path mark, or CLOSED with its outcome, its reason and the read data given. -/
inductive RecordStatus where
  | opened (mark : Option PathMark)
  | closed (outcome : RecordOutcome) (reason : Option Reason) (data : Option Data)
deriving DecidableEq, Repr

/-- A capture record (Table 5-1). -/
structure CaptureRecord where
  seq    : Word
  stamp  : Word
  slot   : SlotNo
  tag    : NearTag
  cls    : AccClass
  addr   : Word
  size   : Size
  data   : Option Data
  fired  : List EntryNo
  owner  : EntryNo
  disp   : Disposition
  status : RecordStatus
deriving DecidableEq, Repr

/-- What a full log does with a new record (section 5.4). -/
inductive LogMode where
  | wrap
  | stop
deriving DecidableEq, Repr

/-- The capture log: its records oldest first, the sequence counter, the lost count and the mode (R99). -/
structure Log where
  records : List CaptureRecord
  counter : Word
  lost    : Count
  mode    : LogMode
deriving DecidableEq, Repr

/-! ## Time base (chapter 6) -/

/-- The time base: the code of the period in force and the stamp counter (R119, R122). The prescale code is the
device parameter. -/
structure Time where
  period : BitVec 3
  stamp  : Word
deriving DecidableEq, Repr

/-! ## State controller (chapter 7) -/

/-- Operating states (R133). -/
inductive OpState where
  | gated
  | bypass
  | watch
  | frozen
deriving DecidableEq, Repr

/-- The states the part may return to on leaving FROZEN (R133). -/
inductive ReturnState where
  | bypass
  | watch
deriving DecidableEq, Repr

/-- What the expiry of a hold timer does (Table 7-3). -/
inductive Policy where
  | release
  | fail
deriving DecidableEq, Repr

/-- The seven device parameters (Table 7-3). -/
structure Params where
  holdLimit  : Count
  policy     : Policy
  farTimeout : Count
  prescale   : BitVec 3
  quiet      : Bool
  baud       : BitVec 2
  parity     : Parity
deriving DecidableEq, Repr

/-- The state controller, with the level of POR_N (`por` true: asserted) and the last TRIGGER level (R130). -/
structure Ctrl where
  op      : OpState
  ret     : Option ReturnState
  params  : Params
  por     : Bool
  trigger : Bool
deriving DecidableEq, Repr

/-! ## Console port and preload port (chapters 7 and 8) -/

/-- The marks a line may take in assembly (R160). -/
inductive Mark where
  | ch
  | ll
  | fr
deriving DecidableEq, Repr

/-- A line being assembled: its stored characters and its first mark (Table 8-2). -/
structure Assembly where
  text : Text
  mark : Option Mark
deriving DecidableEq, Repr

/-- A completed line: its characters, its mark, and whether it was completed while the overrun flag was set (R162). -/
structure Line where
  text    : Text
  mark    : Option Mark
  overrun : Bool
deriving DecidableEq, Repr

/-- Where the service of a line stands: it executes `MR` or `MW`, or its response is pending or being sent. -/
inductive Stage where
  | executing
  | responding
deriving DecidableEq, Repr

/-- The line IN SERVICE. `settings` is true when the end of its response takes new line settings into use (R144). -/
structure Service where
  line     : Line
  stage    : Stage
  settings : Bool
deriving DecidableEq, Repr

/-- Two-letter codes: the refusals of Table 8-3, and PS and AB of the preload notices. -/
inductive Code where
  | bo | uv | bz | nf | nh | em | ob | op | ll | ch | fr | ov | pl | ft | fe | ps | ab
deriving DecidableEq, Repr

/-- The notices of Table 8-4 but for `^NL`, which is never in the queue (R173). -/
inductive Notice where
  | hd (slot : SlotNo) (tag : NearTag) (owner : Option EntryNo) (addr : Word)
  | ex (slot : SlotNo)
  | ft (slot : SlotNo)
  | fs (tag : Fin 32)
  | nr
  | al (entry : EntryNo)
  | fz
  | th
  | lf
  | plOk (lines : Nat)
  | plEr (line : Nat) (code : Code)
  | bk
deriving DecidableEq, Repr

/-- What the transmitter is sending: nothing, a line of the pending response, a notice, or `^NL n` with the notice
that goes out after it (R173, R174). -/
inductive Tx where
  | idle
  | response (line : Text)
  | notice (n : Notice)
  | lost (count : BitVec 8) (next : Notice)
deriving DecidableEq, Repr

/-- Settings of the console line: a baud code and a parity (R153). -/
structure LineSettings where
  baud   : BitVec 2
  parity : Parity
deriving DecidableEq, Repr

/-- The console port. The two line slots are held by what they hold: the line being assembled, the line waiting, the
line in service (notes/assumptions/8.md). `response` holds the lines of the pending response not yet begun. `begunUnder`
is present only while a line is being sent that was begun under settings that are no longer those in use: that line goes
out whole under them (R174, R176; notes/assumptions/27.md). -/
structure Console where
  assembling  : Option Assembly
  waiting     : Option Line
  inService   : Option Service
  overrun     : Bool
  response    : Option (List Text)
  tx          : Tx
  notices     : List Notice
  noticesLost : BitVec 8
  baudInUse   : BitVec 2
  parityInUse : Parity
  settingsDue : Bool
  begunUnder  : Option LineSettings
deriving DecidableEq, Repr

/-- The preload port: its progress (R146), the stream line being assembled, whether the next byte is at the start of a
line (R147), and the model's record of the bits shifted out on PRE_MOSI (R192). -/
structure Preload where
  offset  : Nat
  lines   : Nat
  line    : Assembly
  atStart : Bool
  mosi    : List Bool
deriving DecidableEq, Repr

/-! ## Console memory access (chapter 9) -/

/-- Who waits for the result of the access in slot M (R178). -/
inductive Party where
  | console
  | preload
  | nobody
deriving DecidableEq, Repr

/-- The two commands that start an access in slot M. -/
inductive MemCommand where
  | mr
  | mw
deriving DecidableEq, Repr

/-- The access in hand (R178). -/
structure InHand where
  command : MemCommand
  addr    : Word
  size    : Size
  value   : Option Data
  party   : Party
deriving DecidableEq, Repr

/-- The memory cursor (R177) and the access in hand (R178). -/
structure Mem where
  cursorAddr : Word
  cursorSize : Size
  inHand     : Option InHand
deriving DecidableEq, Repr

/-! ## The whole part -/

/-- The state of the CV2440, and the queue of the commands that wait to be taken. -/
structure State where
  transit : Transit
  near    : Near
  far     : Far
  watch   : Vector WatchEntry 16
  hold    : List SlotNo
  subst   : Vector SubstRecord 8
  log     : Log
  time    : Time
  alerts  : List EntryNo
  ctrl    : Ctrl
  preload : Preload
  console : Console
  mem     : Mem
  pending : List Instr
deriving DecidableEq, Repr

/-- No command of the CV2440 stops the part, so there is no fault: nobody raises one (notes/assumptions/20.md). -/
inductive Fault where
deriving DecidableEq, Repr

/-- Why a command has no meaning. -/
inductive Refusal where
  /-- Raised by an arm of `exec` for a command without a meaning, and by no arm now. Safe: it proves nothing. -/
  | notModelled (mnemonic : String)
deriving DecidableEq, Repr

/-- The device parameters at power-on (Table 7-3). The baud code is the BAUD straps from the negation of POR_N on;
until then it is 0 (DESIGN CHOICE, notes/assumptions/2.md). -/
def Params.powerOn : Params where
  holdLimit  := 0
  policy     := .release
  farTimeout := Config.farTimeoutDefault
  prescale   := 0
  quiet      := false
  baud       := 0
  parity     := .none

/-- Power-on: POR_N is asserted and every piece of state has its power-on value (R193). What the negation of POR_N
samples stands at a placeholder until then (DESIGN CHOICE, unsafe, notes/assumptions/1.md and 2.md). -/
def State.reset : State where
  transit := { slots := Vector.replicate 16 none, slotM := none, arrivals := 0 }
  near    := { responses := [], reset := false, lastResponse := none }
  far     := { forward := [], lastWinner := .forwardQueue, pulse := none, waiting := [], lastRequest := none }
  watch   := Vector.replicate 16 WatchEntry.offValue
  hold    := []
  subst   := Vector.replicate 8 SubstRecord.powerOn
  log     := { records := [], counter := 0, lost := 0, mode := .wrap }
  time    := { period := 0, stamp := 0 }
  alerts  := []
  ctrl    := { op := .gated, ret := none, params := Params.powerOn, por := true, trigger := false }
  preload := { offset := 0, lines := 0, line := { text := [], mark := none }, atStart := true, mosi := [] }
  console := { assembling := none, waiting := none, inService := none, overrun := false, response := none,
               tx := .idle, notices := [], noticesLost := 0, baudInUse := 0, parityInUse := .none,
               settingsDue := false, begunUnder := none }
  mem     := { cursorAddr := 0, cursorSize := .four, inHand := none }
  pending := []

end Sys2Proof.Machine
end

