-- ==== Sys2Proof/Machine/Text.lean ====
section
/-! DEFINITION. The printed forms of section 10.3 (R191): numbers, words and fields of the lines the part sends, and the
number of bytes that a size stands for. -/

namespace Sys2Proof.Machine

/-- The number of bytes of a size. -/
def sizeBytes : Size → Nat
  | .one => 1
  | .two => 2
  | .four => 4
  | .eight => 8

/-- The size of a number of bytes, when it is 1, 2, 4 or 8. -/
def sizeOfNat : Nat → Option Size
  | 1 => some .one
  | 2 => some .two
  | 4 => some .four
  | 8 => some .eight
  | _ => none

/-- The hexadecimal digit of a number below sixteen, upper case (R191). -/
def hexChar : Nat → Char
  | 0 => '0' | 1 => '1' | 2 => '2' | 3 => '3' | 4 => '4' | 5 => '5' | 6 => '6' | 7 => '7'
  | 8 => '8' | 9 => '9' | 10 => 'A' | 11 => 'B' | 12 => 'C' | 13 => 'D' | 14 => 'E' | _ => 'F'

/-- A number in exactly `width` hexadecimal digits, the low ones (R191, fixed widths). -/
def hexFixed : Nat → Nat → Text
  | 0, _ => []
  | width + 1, n => hexFixed width (n / 16) ++ [hexChar (n % 16)]

/-- A number without leading zeros, 0 as `0` (R191, other numbers). Sixteen digits hold every number printed so. -/
def hexPlain (n : Nat) : Text :=
  match (hexFixed 16 n).dropWhile (· == '0') with
  | [] => ['0']
  | t => t

/-- A slot, entry or record number, one digit. -/
def digit {k : Nat} (n : Fin k) : Text := [hexChar n.val]

/-- A 32-bit address or counter, eight digits. -/
def hexWord (w : Word) : Text := hexFixed 8 w.toNat

/-- A 16-bit count, four digits. -/
def hexCount (c : Count) : Text := hexFixed 4 c.toNat

/-- A data value, two digits for each byte of its size, most significant first (R191). -/
def hexData (z : Size) (d : Data) : Text := hexFixed (2 * sizeBytes z) d.toNat

/-- A size, one digit. -/
def sizeText (z : Size) : Text := [hexChar (sizeBytes z)]

/-- A flag, 0 or 1. -/
def flagText (b : Bool) : Text := if b then ['1'] else ['0']

/-- An absent field is printed as `-` (R191). -/
def orDash {α : Type} (f : α → Text) : Option α → Text
  | some a => f a
  | none => ['-']

/-- A list of entry numbers, its digits together; an empty one is printed as `-` (R191). -/
def entryList (l : List EntryNo) : Text :=
  match l with
  | [] => ['-']
  | _ => l.map (fun e => hexChar e.val)

/-- Fields after an opening character, each after one space (R191). -/
def fields (opening : Char) (fs : List Text) : Text := opening :: (fs.map (fun f => ' ' :: f)).flatten

/-- The words of R191's named values. -/
def classWord : AccClass → Text
  | .fetch => "FETCH".toList
  | .load => "LOAD".toList
  | .store => "STORE".toList

/-- Traffic slot state words (Table 1-7). -/
def slotStateWord : SlotState → Text
  | .held => "HELD".toList
  | .queued => "QUEUED".toList
  | .issued => "ISSUED".toList
  | .answering => "ANSWERING".toList
  | .orphan => "ORPHAN".toList

/-- Slot M state words (Table 1-7). -/
def mStateWord : MState → Text
  | .queued => "QUEUED".toList
  | .issued => "ISSUED".toList
  | .orphan => "ORPHAN".toList

/-- Disposition words. -/
def dispWord : Disposition → Text
  | .forward => "FORWARD".toList
  | .substitute => "SUBSTITUTE".toList
  | .hold => "HOLD".toList
  | .align => "ALIGN".toList

/-- Hold reason words. -/
def holdReasonWord : HoldReason → Text
  | .watch => "WATCH".toList
  | .freeze => "FREEZE".toList
  | .order => "ORDER".toList

/-- Pending action words. -/
def pendActionWord : PendAction → Text
  | .forward => "FORWARD".toList
  | .substitute => "SUBSTITUTE".toList

/-- Response reason words. -/
def reasonWord : Reason → Text
  | .ok => "OK".toList
  | .fault => "FAULT".toList
  | .late => "LATE".toList
  | .denied => "DENIED".toList
  | .align => "ALIGN".toList
  | .abort => "ABORT".toList

/-- Watch entry state words. -/
def entryStateWord : EntryState → Text
  | .off => "OFF".toList
  | .dormant => "DORMANT".toList
  | .armed => "ARMED".toList
  | .spent => "SPENT".toList

/-- Action letters (Table 2-5). -/
def actionLetter : Action → Text
  | .pass => ['P']
  | .note => ['N']
  | .subst => ['S']
  | .hold => ['H']
  | .freeze => ['F']

/-- The class letters in the order F, L, S (R53), `-` for the empty set. -/
def classLetters (c : ClassSet) : Text :=
  match (if c.fetch then ['F'] else []) ++ (if c.load then ['L'] else []) ++ (if c.store then ['S'] else []) with
  | [] => ['-']
  | t => t

/-- An arm source: an entry digit or `T` (R53). -/
def armSourceText : ArmSource → Text
  | .entry n => digit n
  | .trigger => ['T']

/-- Path mark words. -/
def pathMarkWord : PathMark → Text
  | .releasedByExpiry => "RELEASED-BY-EXPIRY".toList
  | .substMiss => "SUBST-MISS".toList

/-- Outcome words. -/
def outcomeWord : RecordOutcome → Text
  | .forwarded => "FORWARDED".toList
  | .substituted => "SUBSTITUTED".toList
  | .substMiss => "SUBST-MISS".toList
  | .answered => "ANSWERED".toList
  | .failed => "FAILED".toList
  | .expiredReleased => "EXPIRED-RELEASED".toList
  | .expiredFailed => "EXPIRED-FAILED".toList
  | .farTimeout => "FAR-TIMEOUT".toList
  | .aborted => "ABORTED".toList
  | .cleared => "CLEARED".toList

/-- Log mode letters. -/
def logModeLetter : LogMode → Text
  | .wrap => ['W']
  | .stop => ['S']

/-- Operating state words. -/
def opStateWord : OpState → Text
  | .gated => "GATED".toList
  | .bypass => "BYPASS".toList
  | .watch => "WATCH".toList
  | .frozen => "FROZEN".toList

/-- Return state words. -/
def returnStateWord : ReturnState → Text
  | .bypass => "BYPASS".toList
  | .watch => "WATCH".toList

/-- Expiry policy letters (Table 7-3). -/
def policyLetter : Policy → Text
  | .release => ['R']
  | .fail => ['F']

/-- Parity letters (Table 7-3). -/
def parityLetter : Parity → Text
  | .none => ['N']
  | .even => ['E']
  | .odd => ['O']

/-- The two letters of a code (Table 8-3, R151). -/
def codeText : Code → Text
  | .bo => ['B', 'O'] | .uv => ['U', 'V'] | .bz => ['B', 'Z'] | .nf => ['N', 'F'] | .nh => ['N', 'H']
  | .em => ['E', 'M'] | .ob => ['O', 'B'] | .op => ['O', 'P'] | .ll => ['L', 'L'] | .ch => ['C', 'H']
  | .fr => ['F', 'R'] | .ov => ['O', 'V'] | .pl => ['P', 'L'] | .ft => ['F', 'T'] | .fe => ['F', 'E']
  | .ps => ['P', 'S'] | .ab => ['A', 'B']

/-- A refusal: the code directly after `?` (R168). -/
def refusalText (c : Code) : Text := '?' :: codeText c

/-- The code of a mark (R163, test 3). -/
def markCode : Mark → Code
  | .ch => .ch
  | .ll => .ll
  | .fr => .fr

/-- A notice's line: `^`, the two-letter name and the fields of Table 10-9. -/
def noticeText : Notice → Text
  | .hd n t e a => '^' :: 'H' :: fields 'D' [digit n, digit t, orDash digit e, hexWord a]
  | .ex n => '^' :: 'E' :: fields 'X' [digit n]
  | .ft n => '^' :: 'F' :: fields 'T' [digit n]
  | .fs f => '^' :: 'F' :: fields 'S' [hexPlain f.val]
  | .nr => ['^', 'N', 'R']
  | .al e => '^' :: 'A' :: fields 'L' [digit e]
  | .fz => ['^', 'F', 'Z']
  | .th => ['^', 'T', 'H']
  | .lf => ['^', 'L', 'F']
  | .plOk n => '^' :: 'P' :: fields 'L' [['O', 'K'], hexPlain n]
  | .plEr n c => '^' :: 'P' :: fields 'L' [['E', 'R'], hexPlain n, codeText c]
  | .bk => ['^', 'B', 'K']

/-- The line `^NL n` (R173). -/
def lostText (n : BitVec 8) : Text := '^' :: 'N' :: fields 'L' [hexFixed 2 n.toNat]

/-- The text of the line the transmitter is sending, if any. -/
def txText : Tx → Option Text
  | .idle => none
  | .response l => some l
  | .notice n => some (noticeText n)
  | .lost n _ => some (lostText n)

end Sys2Proof.Machine
end

