-- ==== Sys2Proof/Machine/Operands.lean ====
section
/-! DEFINITION. Reading a command line: tokens (R164), verbs (R165), the general operand grammar (R166), numbers, and
the operand forms that each verb's rule accepts (Table 10-5). A parser answers `none` where the rule says `?BO`. -/

namespace Sys2Proof.Machine

/-- The thirty-one verbs of Table 8-1. -/
inductive Verb where
  | fr | ts | ws | wr | wa | wd | wx | wq | hl | hr | ha | hf | ra | ss | sx | sq | lr | ln | lc | lm | ak
  | go | byp | fz | th | cl | st | sp | ma | mr | mw
deriving DecidableEq, Repr

/-- The two letters of a verb. -/
def verbText : Verb → Token
  | .fr => ['F', 'R'] | .ts => ['T', 'S'] | .ws => ['W', 'S'] | .wr => ['W', 'R'] | .wa => ['W', 'A']
  | .wd => ['W', 'D'] | .wx => ['W', 'X'] | .wq => ['W', 'Q'] | .hl => ['H', 'L'] | .hr => ['H', 'R']
  | .ha => ['H', 'A'] | .hf => ['H', 'F'] | .ra => ['R', 'A'] | .ss => ['S', 'S'] | .sx => ['S', 'X']
  | .sq => ['S', 'Q'] | .lr => ['L', 'R'] | .ln => ['L', 'N'] | .lc => ['L', 'C'] | .lm => ['L', 'M']
  | .ak => ['A', 'K'] | .go => ['G', 'O'] | .byp => ['B', 'Y'] | .fz => ['F', 'Z'] | .th => ['T', 'H']
  | .cl => ['C', 'L'] | .st => ['S', 'T'] | .sp => ['S', 'P'] | .ma => ['M', 'A'] | .mr => ['M', 'R']
  | .mw => ['M', 'W']

/-- Every verb, in the order of Table 8-1. -/
def allVerbs : List Verb :=
  [.fr, .ts, .ws, .wr, .wa, .wd, .wx, .wq, .hl, .hr, .ha, .hf, .ra, .ss, .sx, .sq, .lr, .ln, .lc, .lm, .ak,
   .go, .byp, .fz, .th, .cl, .st, .sp, .ma, .mr, .mw]

/-! ## Characters -/

/-- Letters are read without regard to case (R164): the upper-case form of a letter. -/
def upper (c : Char) : Char := if 97 ≤ c.toNat ∧ c.toNat ≤ 122 then Char.ofNat (c.toNat - 32) else c

/-- A letter, either case. -/
def isLetter (c : Char) : Bool := let n := (upper c).toNat; 65 ≤ n && n ≤ 90

/-- A decimal digit. -/
def isDigit (c : Char) : Bool := 48 ≤ c.toNat && c.toNat ≤ 57

/-- A character that a value or a positional operand is written in (R164). -/
def isAlnum (c : Char) : Bool := isLetter c || isDigit c

/-- The value of a hexadecimal digit, either case. -/
def hexVal (c : Char) : Option Nat :=
  let n := (upper c).toNat
  if 48 ≤ n ∧ n ≤ 57 then some (n - 48) else if 65 ≤ n ∧ n ≤ 70 then some (n - 55) else none

/-! ## Tokens, verbs and the general grammar -/

/-- The tokens of a text whose current token so far is `cur`. -/
def tokensFrom : Text → Token → List Token
  | [], cur => if cur.isEmpty then [] else [cur]
  | c :: cs, cur =>
    if c = ' ' then (if cur.isEmpty then tokensFrom cs [] else cur :: tokensFrom cs [])
    else tokensFrom cs (cur ++ [c])

/-- The runs of characters between spaces (R164). -/
def tokens (t : Text) : List Token := tokensFrom t []

/-- The verb that a first token names, in either case (R165). -/
def verbOf (t : Token) : Option Verb := allVerbs.find? (fun v => verbText v == t.map upper)

/-- The line that a verb's row spells: the verb and each operand after one space. -/
def lineText (v : Verb) (ops : List Token) : Text := verbText v ++ (ops.map (fun t => ' ' :: t)).flatten

/-- The operands of a line, with letters in upper case: positional operands and keyword operands in order. -/
structure Operands where
  pos : List Text
  kws : List (Char × Text)
deriving DecidableEq, Repr

/-- One operand token: positional or keyword. -/
inductive OperandKind where
  | positional (t : Text)
  | keyword (letter : Char) (value : Text)
deriving DecidableEq, Repr

/-- R166, the refusals that concern one token. -/
def readToken (t : Token) : Option OperandKind :=
  if t.contains '=' then
    match t with
    | k :: e :: v =>
      if isLetter k && e == '=' && !v.isEmpty && v.length ≤ Config.valueRoom && v.all isAlnum
      then some (.keyword (upper k) (v.map upper)) else none
    | _ => none
  else if !t.isEmpty && t.length ≤ Config.positionalRoom && t.all isAlnum
  then some (.positional (t.map upper)) else none

/-- R166, the general operand grammar: `none` where it refuses the operands. -/
def readOperands : List Token → Option Operands
  | [] => some { pos := [], kws := [] }
  | t :: ts =>
    match readToken t, readOperands ts with
    | some (.positional p), some o => some { o with pos := p :: o.pos }
    | some (.keyword k v), some o =>
      if o.pos.isEmpty && !(o.kws.map Prod.fst).contains k then some { o with kws := (k, v) :: o.kws } else none
    | _, _ => none

/-! ## Values -/

/-- The number that hexadecimal digits spell after the digits that made `acc`. -/
def hexNumFrom : Nat → Text → Option Nat
  | acc, [] => some acc
  | acc, c :: cs =>
    match hexVal c with
    | some d => hexNumFrom (acc * 16 + d) cs
    | none => none

/-- A number: one or more hexadecimal digits, leading zeros allowed (R164). -/
def hexNum (t : Text) : Option Nat := if t.isEmpty then none else hexNumFrom 0 t

/-- A number below a bound. -/
def hexBelow (bound : Nat) (t : Text) : Option Nat := (hexNum t).filter (fun n => decide (n < bound))

/-- A number of at most so many digits. -/
def hexDigits (most : Nat) (t : Text) : Option Nat := if t.length ≤ most then hexNum t else none

/-- One hexadecimal digit below `k`. -/
def oneDigit (k : Nat) (t : Text) : Option (Fin k) :=
  match t with
  | [c] =>
    match hexVal c with
    | some n => if h : n < k then some ⟨n, h⟩ else none
    | none => none
  | _ => none

/-- A flag written as a number, 0 or 1. -/
def flagValue (t : Text) : Option Bool := (hexBelow 2 t).map (fun n => n == 1)

/-- The value of a keyword operand. -/
def keyword (o : Operands) (k : Char) : Option Text := o.kws.lookup k

/-- Every keyword of the line is one of these. -/
def onlyKeywords (o : Operands) (ks : List Char) : Bool := o.kws.all (fun p => ks.contains p.1)

/-- A keyword operand read by `f`, with the default where it is omitted; `none` where its value is refused. -/
def keywordOr {α : Type} (o : Operands) (k : Char) (dflt : α) (f : Text → Option α) : Option α :=
  match keyword o k with
  | none => some dflt
  | some t => f t

/-- The data bytes that an access of this size carries; R190 ignores the other lanes. -/
def maskData (z : Size) (d : Data) : Data := BitVec.ofNat 64 (d.toNat % 2 ^ (8 * sizeBytes z))

/-- An address that is a multiple of the size. -/
def aligned (a : Word) (z : Size) : Bool := a.toNat % sizeBytes z == 0

/-! ## Operand forms of the verbs (Table 10-5) -/

/-- Verbs that take no operand. -/
def readNone (o : Operands) : Option Unit := if o.pos.isEmpty && o.kws.isEmpty then some () else none

/-- One required digit below `k` and nothing else: `WA`, `WD`, `WX`, `WQ`, `HF`, `SX`, `SQ` (R45, R74, R95). -/
def readDigit (k : Nat) (o : Operands) : Option (Fin k) :=
  match o.pos, o.kws with
  | [p], [] => oneDigit k p
  | _, _ => none

/-- One optional digit and nothing else: `HR`, `AK` (R74, R127). -/
def readOptDigit (o : Operands) : Option (Option (Fin 16)) :=
  match o.pos, o.kws with
  | [], [] => some none
  | [p], [] => (oneDigit 16 p).map some
  | _, _ => none

/-- `WR`: an entry digit and `R=` (R49). -/
def readWr (o : Operands) : Option (EntryNo × Count) :=
  match o.pos, o.kws with
  | [p], [('R', v)] =>
    match oneDigit 16 p, hexBelow 65536 v with
    | some n, some r => some (n, BitVec.ofNat 16 r)
    | _, _ => none
  | _, _ => none

/-- `C=`: one to three of the letters F, L, S, each at most once (Table 2-5). -/
def readClasses (t : Text) : Option ClassSet :=
  if !t.isEmpty && t.all (fun c => c == 'F' || c == 'L' || c == 'S') && decide t.Nodup
  then some ⟨t.contains 'F', t.contains 'L', t.contains 'S'⟩ else none

/-- `A=` of `WS`: an action letter (Table 2-5). -/
def readAction (t : Text) : Option Action :=
  match t with
  | ['P'] => some .pass
  | ['N'] => some .note
  | ['S'] => some .subst
  | ['H'] => some .hold
  | ['F'] => some .freeze
  | _ => none

/-- `F=` of `WS`: an entry digit or T (Table 2-5). -/
def readArmSource (t : Text) : Option ArmSource :=
  match t with
  | ['T'] => some .trigger
  | _ => (oneDigit 16 t).map ArmSource.entry

/-- The data condition from the values of `V=` and `M=` (Table 2-5): absent when neither is given. -/
def condOf (v m : Option Data) : Option DataCond :=
  match v, m with
  | none, none => none
  | _, _ => some { value := v.getD 0, mask := m.getD (BitVec.allOnes 64) }

/-- The checks of R47 that join several operands. -/
def programmingOk (n : EntryNo) (e : WatchEntry) : Bool :=
  decide (e.base ≤ e.limit)
  && (e.cond.isNone || e.classes == ⟨false, false, true⟩)
  && (e.record.isSome == (e.action == some .subst))
  && !(e.armSource == some (.entry n))

/-- `WS`: the entry number and the entry as R48 leaves it, from the operands and defaults of Table 2-5. -/
def readWs (o : Operands) : Option (EntryNo × WatchEntry) := do
  let p ← match o.pos with | [p] => some p | _ => none
  let n ← oneDigit 16 p
  if !onlyKeywords o ['B', 'L', 'C', 'V', 'M', 'A', 'S', 'W', 'O', 'R', 'F'] then none
  let base ← (keyword o 'B').bind (hexBelow (2 ^ 32))
  let action ← (keyword o 'A').bind readAction
  let limit ← keywordOr o 'L' base (hexBelow (2 ^ 32))
  let classes ← keywordOr o 'C' ⟨true, true, true⟩ readClasses
  let value ← keywordOr o 'V' none (fun t => (hexBelow (2 ^ 64) t).map (fun v => some (BitVec.ofNat 64 v)))
  let mask ← keywordOr o 'M' none (fun t => (hexBelow (2 ^ 64) t).map (fun v => some (BitVec.ofNat 64 v)))
  let record ← keywordOr o 'S' none (fun t => (hexBelow 8 t).map (fun r => some (Fin.ofNat 8 r)))
  let alert ← keywordOr o 'W' false flagValue
  let once ← keywordOr o 'O' false flagValue
  let reload ← keywordOr o 'R' 0 (hexBelow 65536)
  let arm ← keywordOr o 'F' none (fun t => (readArmSource t).map some)
  let e : WatchEntry := {
    state := if arm.isSome then .dormant else .armed
    base := BitVec.ofNat 32 base
    limit := BitVec.ofNat 32 limit
    classes := classes
    cond := condOf value mask
    action := some action
    record := record
    alert := alert
    once := once
    armSource := arm
    remaining := BitVec.ofNat 16 reload
    reload := BitVec.ofNat 16 reload
    pendingReload := none
    fires := 0 }
  if programmingOk n e then some (n, e) else none

/-- `HA`: a slot digit and at most the keyword `V=`, whose value R78 and R79 check later (R74). -/
def readHa (o : Operands) : Option (SlotNo × Option Text) :=
  match o.pos, o.kws with
  | [p], [] => (oneDigit 16 p).map (fun n => (n, none))
  | [p], [('V', v)] => (oneDigit 16 p).map (fun n => (n, some v))
  | _, _ => none

/-- A value of up to sixteen hex digits that fits the size: less than 2 to the power of eight times the size. -/
def readValue (z : Size) (t : Text) : Option Data :=
  (hexBelow (2 ^ (8 * sizeBytes z)) t).map (fun v => BitVec.ofNat 64 v)

/-- `SS`: a record digit and `A=`, `Z=`, `V=`, all required (R97). -/
def readSs (o : Operands) : Option (RecordNo × SubstRecord) := do
  let p ← match o.pos with | [p] => some p | _ => none
  let n ← oneDigit 8 p
  if !onlyKeywords o ['A', 'Z', 'V'] then none
  let a ← (keyword o 'A').bind (hexBelow (2 ^ 32))
  let z ← ((keyword o 'Z').bind hexNum).bind sizeOfNat
  let v ← (keyword o 'V').bind (readValue z)
  if aligned (BitVec.ofNat 32 a) z then
    some (n, { valid := true, addr := BitVec.ofNat 32 a, size := z, value := v, uses := 0 })
  else none

/-- `LR`: a sequence number of one to eight hex digits (R112). -/
def readLr (o : Operands) : Option Word :=
  match o.pos, o.kws with
  | [p], [] => (hexDigits 8 p).map (fun q => BitVec.ofNat 32 q)
  | _, _ => none

/-- `LM`: an optional letter, W or S (R112). -/
def readLm (o : Operands) : Option (Option LogMode) :=
  match o.pos, o.kws with
  | [], [] => some none
  | [['W']], [] => some (some .wrap)
  | [['S']], [] => some (some .stop)
  | _, _ => none

/-- `E=` of `SP` (Table 7-3). -/
def readPolicy (t : Text) : Option Policy :=
  match t with
  | ['R'] => some .release
  | ['F'] => some .fail
  | _ => none

/-- `Y=` of `SP` (Table 7-3). -/
def readParity (t : Text) : Option Parity :=
  match t with
  | ['N'] => some .none
  | ['E'] => some .even
  | ['O'] => some .odd
  | _ => none

/-- `SP`: the device parameters as the operands leave them (R142). -/
def readSp (p : Params) (o : Operands) : Option Params := do
  if !o.pos.isEmpty || !onlyKeywords o ['H', 'E', 'F', 'P', 'Q', 'D', 'Y'] then none
  let hold ← keywordOr o 'H' p.holdLimit (fun t => (hexDigits 4 t).map (fun n => BitVec.ofNat 16 n))
  let policy ← keywordOr o 'E' p.policy readPolicy
  let far ← keywordOr o 'F' p.farTimeout (fun t => (hexDigits 4 t).map (fun n => BitVec.ofNat 16 n))
  let prescale ← keywordOr o 'P' p.prescale (fun t => (oneDigit 8 t).map (fun n => BitVec.ofNat 3 n.val))
  let quiet ← keywordOr o 'Q' p.quiet (fun t => (oneDigit 2 t).map (fun n => n.val == 1))
  let baud ← keywordOr o 'D' p.baud (fun t => (oneDigit 4 t).map (fun n => BitVec.ofNat 2 n.val))
  let parity ← keywordOr o 'Y' p.parity readParity
  some { holdLimit := hold, policy := policy, farTimeout := far, prescale := prescale, quiet := quiet,
         baud := baud, parity := parity }

/-- `Z=` of `MA`, `MR` and `MW`: one hex digit, 1, 2, 4 or 8 (R179, R180). -/
def readSizeDigit (t : Text) : Option Size := (hexDigits 1 t).bind sizeOfNat

/-- Address and size from `A=` and `Z=`, each the cursor's where it is omitted, aligned (R179, R180). -/
def readPlace (m : Mem) (o : Operands) : Option (Word × Size) := do
  let a ← keywordOr o 'A' m.cursorAddr (fun t => (hexDigits 8 t).map (fun n => BitVec.ofNat 32 n))
  let z ← keywordOr o 'Z' m.cursorSize readSizeDigit
  if aligned a z then some (a, z) else none

/-- `MA` and `MR`: `A=` and `Z=` (R179, R180). -/
def readMa (m : Mem) (o : Operands) : Option (Word × Size) :=
  if o.pos.isEmpty && onlyKeywords o ['A', 'Z'] then readPlace m o else none

/-- `MW`: `A=`, `Z=` and the required `V=` (R180). -/
def readMw (m : Mem) (o : Operands) : Option (Word × Size × Data) := do
  if !o.pos.isEmpty || !onlyKeywords o ['A', 'Z', 'V'] then none
  let az ← readPlace m o
  let v ← (keyword o 'V').bind (readValue az.2)
  some (az.1, az.2, v)

end Sys2Proof.Machine
end

