-- ==== Sys2Proof/Machine/Ops.lean ====
section
/-! DEFINITION. The shared operations on State: reading and writing slots, entries and records, counters, raising a
notice, answering and forwarding a slot, closing a capture record, the alert set and the operating state. -/

namespace Sys2Proof.Machine

/-! ## Counters -/

/-- A count that stays at its greatest value (R33, R93, R105, R172). -/
def satInc {w : Nat} (c : BitVec w) : BitVec w := if c = BitVec.allOnes w then c else c + 1

/-- A timer at a tick: it decreases by one, and a timer at zero is not decreased again (R123). -/
def tickTimer (t : Option Count) : Option Count := t.map (fun c => if c = 0 then 0 else c - 1)

/-- A timer loaded from a parameter: a parameter of 0 loads none (R14, R65). -/
def loadTimer (limit : Count) : Option Count := if limit = 0 then none else some limit

/-! ## Traffic slots -/

/-- All slot and entry numbers, ascending. -/
def allSixteen : List (Fin 16) := List.finRange 16

/-- All record numbers, ascending. -/
def allEight : List (Fin 8) := List.finRange 8

/-- The access in a traffic slot; `none` for a FREE slot. -/
def State.slot (s : State) (n : SlotNo) : Option Access := s.transit.slots[n]

/-- The state with another content in one traffic slot. -/
def State.setSlot (s : State) (n : SlotNo) (a : Option Access) : State :=
  { s with transit := { s.transit with slots := s.transit.slots.set n a } }

/-- The state with the access of one slot changed; a FREE slot stays FREE. -/
def State.modSlot (s : State) (n : SlotNo) (f : Access → Access) : State := s.setSlot n ((s.slot n).map f)

/-- The state with slot M changed. -/
def State.setSlotM (s : State) (m : Option MAccess) : State := { s with transit := { s.transit with slotM := m } }

/-- The traffic slot is in this state. -/
def State.slotIs (s : State) (n : SlotNo) (st : SlotState) : Bool := (s.slot n).any (fun a => a.state == st)

/-- The lowest-numbered FREE traffic slot (R3). -/
def State.freeSlot (s : State) : Option SlotNo := allSixteen.find? (fun n => (s.slot n).isNone)

/-- A slot state in which the slot itself carries its near tag live (R2). -/
def carriesTag : SlotState → Bool
  | .held => true
  | .queued => true
  | .issued => true
  | .answering => false
  | .orphan => false

/-- A live near tag (R2): carried by a HELD, QUEUED or ISSUED slot or by a near response queue entry. -/
def State.live (s : State) (t : NearTag) : Bool :=
  allSixteen.any (fun n => (s.slot n).any (fun a => carriesTag a.state && a.tag == some t))
  || s.near.responses.any (fun e => e.tag == t)

/-- The entry of the near response queue that belongs to a slot: the field "response" of Table 1-2. -/
def State.slotResponse (s : State) (n : SlotNo) : Option RespEntry :=
  s.near.responses.find? (fun e => e.slot == some n)

/-- How many traffic slots are not FREE (R145). -/
def State.busySlots (s : State) : Nat := allSixteen.countP (fun n => (s.slot n).isSome)

/-! ## Notices (R171, R172) -/

/-- `^PL` and `^BK` are queued whatever the quiet parameter (R143, R156). -/
def alwaysQueued : Notice → Bool
  | .plOk _ => true
  | .plEr _ _ => true
  | .bk => true
  | .hd _ _ _ _ => false
  | .ex _ => false
  | .ft _ => false
  | .fs _ => false
  | .nr => false
  | .al _ => false
  | .fz => false
  | .th => false
  | .lf => false

/-- The console port when a notice is offered to its queue (R171, R172). -/
def offerNotice (quiet : Bool) (n : Notice) (c : Console) : Console :=
  if quiet && !alwaysQueued n then c
  else if c.notices.length < Config.noticeRoom then { c with notices := c.notices ++ [n] }
  else { c with noticesLost := satInc c.noticesLost }

/-- A block raises a notice. -/
def State.raise (s : State) (n : Notice) : State :=
  { s with console := offerNotice s.ctrl.params.quiet n s.console }

/-! ## Near responses -/

/-- An entry is appended to the near response queue (R10). -/
def State.respond (s : State) (e : RespEntry) : State :=
  { s with near := { s.near with responses := s.near.responses ++ [e] } }

/-- A response without a slot number for the near tag of an access, if it still has one (R10, R19, R24). -/
def State.respondLoose (s : State) (tag : Option NearTag) (r : Reason) : State :=
  match tag with
  | some t => s.respond { tag := t, reason := r, data := none, slot := none }
  | none => s

/-- An access without its hold fields (R58). -/
def Access.released (a : Access) : Access := { a with holdReason := none, holdTimer := none, pendAction := none }

/-- A slot is answered: it becomes ANSWERING and an entry with its tag and its number is appended (R58, R10). -/
def State.answerSlot (s : State) (n : SlotNo) (r : Reason) (d : Option Data) : State :=
  match s.slot n with
  | none => s
  | some a =>
    let s' := s.setSlot n (some { a.released with state := .answering, farTimer := none })
    match a.tag with
    | some t => s'.respond { tag := t, reason := r, data := d, slot := some n }
    | none => s'

/-- A slot becomes QUEUED and joins the tail of the forward queue (R12). -/
def State.forwardSlot (s : State) (n : SlotNo) : State :=
  let s' := s.modSlot n (fun a => { a.released with state := .queued })
  { s' with far := { s'.far with forward := s'.far.forward ++ [n] } }

/-! ## Capture records (sections 5.2 and 5.5) -/

/-- The log sequence number a slot holds. -/
def State.slotSeq (s : State) (n : SlotNo) : Option Word := (s.slot n).bind Access.logSeq

/-- The log with the record of one sequence number changed. -/
def Log.mapRecord (l : Log) (q : Word) (f : CaptureRecord → CaptureRecord) : Log :=
  { l with records := l.records.map (fun r => if r.seq = q then f r else r) }

/-- A record that is OPEN is closed; a CLOSED record is not closed a second time (R107). -/
def CaptureRecord.close (c : CaptureRecord) (o : RecordOutcome) (r : Option Reason) (d : Option Data) : CaptureRecord :=
  match c.status with
  | .opened _ => { c with status := .closed o r d }
  | .closed _ _ _ => c

/-- A record that is OPEN takes a path mark (R106); a CLOSED record is not reopened (R107). -/
def CaptureRecord.mark (c : CaptureRecord) (m : PathMark) : CaptureRecord :=
  match c.status with
  | .opened _ => { c with status := .opened (some m) }
  | .closed _ _ _ => c

/-- A record that is OPEN. -/
def CaptureRecord.isOpen (c : CaptureRecord) : Bool :=
  match c.status with
  | .opened _ => true
  | .closed _ _ _ => false

/-- The OPEN record that a slot names is closed and the slot loses its log sequence number (R107); a slot without one
closes nothing. -/
def State.closeRecord (s : State) (n : SlotNo) (o : RecordOutcome) (r : Option Reason) (d : Option Data) : State :=
  match s.slotSeq n with
  | none => s
  | some q =>
    let s' := s.modSlot n (fun a => { a with logSeq := none })
    { s' with log := s'.log.mapRecord q (fun c => c.close o r d) }

/-- A path mark is written into the OPEN record that a slot names (R106). -/
def State.markRecord (s : State) (n : SlotNo) (m : PathMark) : State :=
  match s.slotSeq n with
  | none => s
  | some q => { s with log := s.log.mapRecord q (fun c => c.mark m) }

/-- The path mark that the OPEN record of a slot carries. -/
def State.recordMark (s : State) (n : SlotNo) : Option PathMark :=
  match s.slotSeq n with
  | none => none
  | some q =>
    match s.log.records.find? (fun r => r.seq = q) with
    | some { status := .opened m, .. } => m
    | _ => none

/-- The outcome that a far response gives, by the path mark (R108). -/
def outcomeOfMark : Option PathMark → RecordOutcome
  | none => .forwarded
  | some .substMiss => .substMiss
  | some .releasedByExpiry => .expiredReleased

/-! ## Alert set (R125, R126) -/

/-- The alert set with one more member, kept ascending. -/
def joinAlerts (e : EntryNo) (l : List EntryNo) : List EntryNo := allSixteen.filter (fun i => i == e || l.contains i)

/-- A firing entry with its alert flag joins the alert set; a new member raises `^AL` (R126). -/
def State.joinAlert (s : State) (e : EntryNo) : State :=
  if s.alerts.contains e then s else { s with alerts := joinAlerts e s.alerts }.raise (.al e)

/-! ## Watch entries, substitution records and the operating state -/

/-- A watch entry. -/
def State.entry (s : State) (n : EntryNo) : WatchEntry := s.watch[n]

/-- The state with one watch entry replaced. -/
def State.setEntry (s : State) (n : EntryNo) (e : WatchEntry) : State := { s with watch := s.watch.set n e }

/-- Every watch entry OFF (R29). -/
def State.entriesOff (s : State) : State := { s with watch := Vector.replicate 16 WatchEntry.offValue }

/-- A substitution record. -/
def State.record (s : State) (n : RecordNo) : SubstRecord := s.subst[n]

/-- The state with one substitution record replaced. -/
def State.setRecord (s : State) (n : RecordNo) (r : SubstRecord) : State := { s with subst := s.subst.set n r }

/-- Every substitution record invalid, its other fields kept (R87). -/
def State.recordsInvalid (s : State) : State :=
  { s with subst := Vector.ofFn (fun i : Fin 8 => { s.record i with valid := false }) }

/-- A change to a state other than FROZEN; the return state becomes absent (R133). -/
def State.enter (s : State) (o : OpState) : State := { s with ctrl := { s.ctrl with op := o, ret := none } }

/-- Entry to FROZEN with the given return state, raising `^FZ` (R133, R136). -/
def State.freeze (s : State) (r : ReturnState) : State :=
  { s with ctrl := { s.ctrl with op := .frozen, ret := some r } }.raise .fz

/-- The operating state that a return state names. -/
def opOfReturn : ReturnState → OpState
  | .bypass => .bypass
  | .watch => .watch

/-! ## Answers of the verbs (R168) -/

/-- What the rule of a verb answers: accepted, with its lines; accepted by an `SP` that changed D or Y; refused with a
code; or a slot M access begun, which answers when it ends (R167). -/
inductive Answer where
  | lines (ls : List Text)
  | settings (l : Text)
  | refused (c : Code)
  | begun
deriving DecidableEq, Repr

/-- An answer of one `=` line with fields. -/
def answerFields (fs : List Text) : Answer := .lines [fields '=' fs]

/-- A listing: its item lines and the final line with their number (R168). -/
def answerListing (items : List Text) : Answer := .lines (items ++ [fields '=' [hexPlain items.length]])

end Sys2Proof.Machine
end

