-- ==== Sys2Proof/Machine/Watch.lean ====
section
/-! DEFINITION. The watch unit (chapter 2): matching, counting, firing, arming, and the judgement of one access. -/

namespace Sys2Proof.Machine

/-- What a judgement sees of an access: its class, address, size and store data. -/
structure Judged where
  cls  : AccClass
  addr : Word
  size : Size
  data : Option Data
deriving DecidableEq, Repr

/-- The class is in the set. -/
def ClassSet.has (c : ClassSet) : AccClass → Bool
  | .fetch => c.fetch
  | .load => c.load
  | .store => c.store

/-- The byte ranges of two accesses share a byte. Aligned accesses do not wrap past the top (R8). -/
def rangesMeet (a : Word) (na : Nat) (b : Word) (nb : Nat) : Bool :=
  decide (a.toNat < b.toNat + nb) && decide (b.toNat < a.toNat + na)

/-- At least one byte of the access lies in the window from base to limit (R30). -/
def inWindow (e : WatchEntry) (a : Word) (z : Size) : Bool :=
  decide (a.toNat ≤ e.limit.toNat) && decide (e.base.toNat ≤ a.toNat + sizeBytes z - 1)

/-- The data condition on store data, zero-extended to 64 bits (R31). -/
def condHolds (c : DataCond) (d : Data) : Bool := (d &&& c.mask) == (c.value &&& c.mask)

/-- The entry has no data condition, or the access is a STORE whose data satisfies it (R30). -/
def condMatches (c : Option DataCond) (j : Judged) : Bool :=
  match c with
  | none => true
  | some c => j.cls == .store && j.data.any (condHolds c)

/-- The entry matches the access (R30). -/
def entryMatches (e : WatchEntry) (j : Judged) : Bool :=
  e.state == .armed && e.classes.has j.cls && inWindow e j.addr j.size && condMatches e.cond j

/-- The entry matches and its remaining count is zero: it fires (R32). -/
def entryFires (e : WatchEntry) (j : Judged) : Bool := entryMatches e j && e.remaining == 0

/-- A pending reload, if present, becomes the reload value and is then absent (R33, R50). -/
def WatchEntry.applyPending (e : WatchEntry) : WatchEntry :=
  { e with reload := e.pendingReload.getD e.reload, pendingReload := none }

/-- The remaining count is loaded from the reload value (R33, R50). -/
def WatchEntry.reloaded (e : WatchEntry) : WatchEntry := { e with remaining := e.reload }

/-- The entry after its own firing (R33). -/
def WatchEntry.fired (e : WatchEntry) : WatchEntry :=
  let e := { e with fires := satInc e.fires }
  if e.once then { e with state := .spent } else e.applyPending.reloaded

/-- The entry after the match of one access: it counts or it fires (R32). -/
def WatchEntry.afterMatch (e : WatchEntry) : WatchEntry :=
  if e.remaining = 0 then e.fired else { e with remaining := e.remaining - 1 }

/-- The entries that fire on an access, ascending (R37, R39). -/
def State.firedEntries (s : State) (j : Judged) : List EntryNo := allSixteen.filter (fun n => entryFires (s.entry n) j)

/-- The entry waits, DORMANT, for the firing of one of these entries (R34). -/
def armedBy (e : WatchEntry) (fired : List EntryNo) : Bool :=
  e.state == .dormant &&
  match e.armSource with
  | some (.entry m) => fired.contains m
  | some .trigger => false
  | none => false

/-- An entry after a judgement: counting and firing (R32, R33), else chain arming (R34). -/
def judgedEntry (e : WatchEntry) (j : Judged) (fired : List EntryNo) : WatchEntry :=
  if entryMatches e j then e.afterMatch
  else if armedBy e fired then { e with state := .armed } else e

/-- All entries after a judgement (R37). -/
def State.judgeEntries (s : State) (j : Judged) : State :=
  { s with watch := Vector.ofFn (fun n : Fin 16 => judgedEntry (s.entry n) j (s.firedEntries j)) }

/-- The actions by strength, strongest first (R38). -/
def actionsByStrength : List Action := [.freeze, .hold, .subst, .note, .pass]

/-- The winning action among the fired entries (R38). -/
def State.winning (s : State) (fired : List EntryNo) : Option Action :=
  actionsByStrength.find? (fun a => fired.any (fun n => (s.entry n).action == some a))

/-- The owner entry: the lowest-numbered fired entry whose action is the winning action (R38). -/
def State.ownerOf (s : State) (fired : List EntryNo) : Option EntryNo :=
  match s.winning fired with
  | none => none
  | some a => fired.find? (fun n => (s.entry n).action == some a)

/-- The disposition of each outcome (Table 2-3). -/
def dispOfAction : Option Action → Disposition
  | none => .forward
  | some .pass => .forward
  | some .note => .forward
  | some .subst => .substitute
  | some .hold => .hold
  | some .freeze => .hold

/-- A capture record is made when the winning action is NOTE or stronger (R39). -/
def recordWanted : Option Action → Bool
  | none => false
  | some .pass => false
  | some .note => true
  | some .subst => true
  | some .hold => true
  | some .freeze => true

/-- The fired entries with their alert flag yes join the alert set, ascending (R40, R42). -/
def State.raiseAlerts (s : State) (fired : List EntryNo) : State :=
  (fired.filter (fun n => (s.entry n).alert)).foldl State.joinAlert s

/-- A TRIGGER rising edge taken in WATCH arms every DORMANT entry whose arm source is TRIGGER (R35, R131). R132 says of an
edge taken before a `WS` on the entry that the entry, DORMANT or not, is left as it is; that this does not except an entry
already DORMANT with arm source T from R35, so that the edge arms it and R47 then refuses the `WS`, is the model's choice
(DEDUCED, notes/assumptions/28.md). -/
def triggerArmed (e : WatchEntry) : WatchEntry :=
  if e.state == .dormant && e.armSource == some .trigger then { e with state := .armed } else e

/-- The entries after a TRIGGER rising edge (R35, R131). -/
def State.triggerEntries (s : State) : State :=
  if s.ctrl.op = .watch then { s with watch := Vector.ofFn (fun n : Fin 16 => triggerArmed (s.entry n)) } else s

/-! ## The W verbs (section 2.7) -/

/-- The answer `= n s` of an accepted `WS`, `WR`, `WA`, `WD` or `WX` (R45). -/
def entryAnswer (n : EntryNo) (e : WatchEntry) : Answer := answerFields [digit n, entryStateWord e.state]

/-- One entry takes a new content, and its number and state are answered. -/
def State.programEntry (s : State) (n : EntryNo) (e : WatchEntry) : State × Answer := (s.setEntry n e, entryAnswer n e)

/-- `WS` (R46 to R48). -/
def cmdWs (o : Operands) (s : State) : State × Answer :=
  match readWs o with
  | none => (s, .refused .bo)
  | some (n, e) => if (s.entry n).state = .armed then (s, .refused .bz) else s.programEntry n e

/-- `WR` (R49). -/
def cmdWr (o : Operands) (s : State) : State × Answer :=
  match readWr o with
  | none => (s, .refused .bo)
  | some (n, v) =>
    let e := s.entry n
    match e.state with
    | .off => (s, .refused .bz)
    | .armed => s.programEntry n { e with pendingReload := some v }
    | .dormant => s.programEntry n { e with reload := v, remaining := v, pendingReload := none }
    | .spent => s.programEntry n { e with reload := v, remaining := v, pendingReload := none }

/-- `WA` (R50). -/
def cmdWa (o : Operands) (s : State) : State × Answer :=
  match readDigit 16 o with
  | none => (s, .refused .bo)
  | some n =>
    let e := s.entry n
    match e.state with
    | .dormant => s.programEntry n { e with state := .armed }
    | .spent => s.programEntry n { e.applyPending.reloaded with state := .armed }
    | .off => (s, .refused .bz)
    | .armed => (s, .refused .bz)

/-- `WD` (R51). -/
def cmdWd (o : Operands) (s : State) : State × Answer :=
  match readDigit 16 o with
  | none => (s, .refused .bo)
  | some n =>
    if (s.entry n).state = .armed then s.programEntry n { s.entry n with state := .dormant }
    else (s, .refused .bz)

/-- `WX` (R52). -/
def cmdWx (o : Operands) (s : State) : State × Answer :=
  match readDigit 16 o with
  | none => (s, .refused .bo)
  | some n => s.programEntry n WatchEntry.offValue

/-- The fields of a `WQ` report (R53, Table 10-8). -/
def entryReport (n : EntryNo) (e : WatchEntry) : List Text :=
  [digit n, entryStateWord e.state, hexWord e.base, hexWord e.limit, classLetters e.classes,
   orDash (fun c => hexFixed 16 c.value.toNat) e.cond, orDash (fun c => hexFixed 16 c.mask.toNat) e.cond,
   orDash actionLetter e.action, orDash digit e.record, flagText e.alert, flagText e.once,
   orDash armSourceText e.armSource, hexCount e.remaining, hexCount e.reload, orDash hexCount e.pendingReload,
   hexCount e.fires]

/-- `WQ` (R53). -/
def cmdWq (o : Operands) (s : State) : State × Answer :=
  match readDigit 16 o with
  | none => (s, .refused .bo)
  | some n => (s, answerFields (entryReport n (s.entry n)))

end Sys2Proof.Machine
end

