-- ==== Sys2Proof/Machine/Capture.lean ====
section
/-! DEFINITION. The capture log (chapter 5): making a record, the full log, and the L verbs. -/

namespace Sys2Proof.Machine

/-- The log counts a record that it could not make (R105). -/
def Log.countLost (l : Log) : Log := { l with lost := satInc l.lost }

/-- The log with one new record at its newest end; the counter takes the new number (R101). -/
def Log.append (l : Log) (r : Word → CaptureRecord) : Log :=
  { l with records := l.records ++ [r (l.counter + 1)], counter := l.counter + 1 }

/-- The log without its oldest record. -/
def Log.dropOldest (l : Log) : Log := { l with records := l.records.tail }

/-- The oldest record, if any, is CLOSED. -/
def Log.oldestClosed (l : Log) : Bool := l.records.head?.any (fun r => !r.isOpen)

/-- The log after an attempt to make a record, when the attempt succeeds (R101 to R104). -/
def Log.make (l : Log) (r : Word → CaptureRecord) : Option Log :=
  if l.counter = BitVec.allOnes 32 then none
  else if l.records.length < Config.logRoom then some (l.append r)
  else if l.mode = .wrap ∧ l.oldestClosed then some (l.dropOldest.append r)
  else none

/-- An attempt to make a record for the access in slot n: on success the slot holds the number (R101), otherwise the
record is counted as lost (R105). -/
def State.makeRecord (s : State) (n : SlotNo) (r : Word → CaptureRecord) : State :=
  match s.log.make r with
  | some l => { s with log := l }.modSlot n (fun a => { a with logSeq := some l.counter })
  | none => { s with log := s.log.countLost }

/-- The attempt would lose the record, and the lost count is 0: `^LF` is due (R105). -/
def State.firstLoss (s : State) (r : Word → CaptureRecord) : Bool := (s.log.make r).isNone && s.log.lost == 0

/-- The path mark of a record that carries one. -/
def statusMark : RecordStatus → Option PathMark
  | .opened m => m
  | .closed _ _ _ => none

/-- The outcome of a CLOSED record. -/
def statusOutcome : RecordStatus → Option RecordOutcome
  | .opened _ => none
  | .closed o _ _ => some o

/-- The reason of a CLOSED record. -/
def statusReason : RecordStatus → Option Reason
  | .opened _ => none
  | .closed _ r _ => r

/-- The read data of a CLOSED record. -/
def statusData : RecordStatus → Option Data
  | .opened _ => none
  | .closed _ _ d => d

/-- The word OPEN or CLOSED. -/
def statusWord (r : CaptureRecord) : Text := if r.isOpen then "OPEN".toList else "CLOSED".toList

/-- The fields of an `LR` or `LN` report (R113, Table 10-8). -/
def recordReport (r : CaptureRecord) : List Text :=
  [hexWord r.seq, hexWord r.stamp, digit r.slot, digit r.tag, classWord r.cls, hexWord r.addr, sizeText r.size,
   orDash (hexData r.size) r.data, entryList r.fired, digit r.owner, dispWord r.disp, statusWord r,
   orDash pathMarkWord (statusMark r.status), orDash outcomeWord (statusOutcome r.status),
   orDash reasonWord (statusReason r.status), orDash (hexData r.size) (statusData r.status)]

/-- `LR` (R113). -/
def cmdLr (o : Operands) (s : State) : State × Answer :=
  match readLr o with
  | none => (s, .refused .bo)
  | some q =>
    match s.log.records.find? (fun r => r.seq = q) with
    | none => (s, .refused .nf)
    | some r => (s, answerFields (recordReport r))

/-- `LN` (R114). -/
def cmdLn (o : Operands) (s : State) : State × Answer :=
  match readNone o with
  | none => (s, .refused .bo)
  | some _ =>
    match s.log.records with
    | [] => (s, .refused .em)
    | r :: _ =>
      if r.isOpen then (s, .refused .op)
      else ({ s with log := s.log.dropOldest }, answerFields (recordReport r))

/-- `LC` (R115). -/
def cmdLc (o : Operands) (s : State) : State × Answer :=
  match readNone o with
  | none => (s, .refused .bo)
  | some _ =>
    ({ s with log := { s.log with records := s.log.records.filter CaptureRecord.isOpen, lost := 0 } },
      answerFields [hexPlain (s.log.records.countP (fun r => !r.isOpen))])

/-- `LM` (R116). -/
def cmdLm (o : Operands) (s : State) : State × Answer :=
  match readLm o with
  | none => (s, .refused .bo)
  | some none => (s, answerFields [logModeLetter s.log.mode])
  | some (some m) => ({ s with log := { s.log with mode := m } }, answerFields [logModeLetter m])

end Sys2Proof.Machine
end

