-- ==== Sys2Proof/Machine/Subst.lean ====
section
/-! DEFINITION. The substitution table (chapter 4): carrying out a substitution, and the S verbs. -/

namespace Sys2Proof.Machine

/-- Every byte of the access lies in the record's byte range (R89). -/
def SubstRecord.covers (r : SubstRecord) (a : Word) (z : Size) : Bool :=
  decide (r.addr.toNat ≤ a.toNat) && decide (a.toNat + sizeBytes z ≤ r.addr.toNat + sizeBytes r.size)

/-- How many bits above the record's lowest byte the byte at an address lies (R90). -/
def SubstRecord.shift (r : SubstRecord) (a : Word) : Nat := 8 * (a.toNat - r.addr.toNat)

/-- The record's bytes at the access's byte addresses, as a number (R90, R91). -/
def SubstRecord.read (r : SubstRecord) (a : Word) (z : Size) : Data := maskData z (r.value >>> r.shift a)

/-- The record after the bytes of a store replaced its bytes at the same addresses (R92). -/
def SubstRecord.write (r : SubstRecord) (a : Word) (z : Size) (d : Data) : SubstRecord :=
  { r with value := (r.value &&& ~~~(maskData z (BitVec.allOnes 64) <<< r.shift a)) ||| (maskData z d <<< r.shift a) }

/-- The record that an owner entry names, as the entry stands, when its action is SUBST (R44, R88). -/
def State.namedRecord (s : State) (owner : Option EntryNo) : Option RecordNo :=
  match owner with
  | none => none
  | some e => if (s.entry e).action = some .subst then (s.entry e).record else none

/-- The record that an access hits, if it hits one (R89). -/
def State.hitRecord (s : State) (a : Access) : Option RecordNo :=
  (s.namedRecord a.owner).filter (fun n => (s.record n).valid && (s.record n).covers a.addr a.size)

/-- The record after a hit: the store's bytes written into it (R92), its use count increased (R93). -/
def hitEffect (r : SubstRecord) (a : Access) : SubstRecord :=
  let r := match a.cls with
    | .store => r.write a.addr a.size (a.data.getD 0)
    | .fetch => r
    | .load => r
  { r with uses := satInc r.uses }

/-- The read data of a hit: the record's bytes for a FETCH or LOAD, none for a STORE (R91, R92). -/
def hitData (r : SubstRecord) (a : Access) : Option Data :=
  match a.cls with
  | .store => none
  | .fetch => some (r.read a.addr a.size)
  | .load => some (r.read a.addr a.size)

/-- The substitution of slot n is carried out: a hit answers it and closes its record SUBSTITUTED (R91, R92), a miss
marks its record and forwards it (R94). -/
def State.carryOut (s : State) (n : SlotNo) : State :=
  match s.slot n with
  | none => s
  | some a =>
    match s.hitRecord a with
    | some r =>
      let d := hitData (s.record r) a
      ((s.setRecord r (hitEffect (s.record r) a)).closeRecord n .substituted (some .ok) d).answerSlot n .ok d
    | none => (s.markRecord n .substMiss).forwardSlot n

/-! ## The S verbs (section 4.5) -/

/-- `SS` (R97). -/
def cmdSs (o : Operands) (s : State) : State × Answer :=
  match readSs o with
  | none => (s, .refused .bo)
  | some (n, r) => (s.setRecord n r, answerFields [digit n])

/-- `SX` (R96). -/
def cmdSx (o : Operands) (s : State) : State × Answer :=
  match readDigit 8 o with
  | none => (s, .refused .bo)
  | some n => (s.setRecord n { s.record n with valid := false }, answerFields [digit n])

/-- The fields of an `SQ` report (R98, Table 10-8). -/
def substReport (n : RecordNo) (r : SubstRecord) : List Text :=
  [digit n, flagText r.valid, hexWord r.addr, sizeText r.size, hexData r.size r.value, hexCount r.uses]

/-- `SQ` (R98). -/
def cmdSq (o : Operands) (s : State) : State × Answer :=
  match readDigit 8 o with
  | none => (s, .refused .bo)
  | some n => (s, answerFields (substReport n (s.record n)))

end Sys2Proof.Machine
end

