-- ==== Sys2Proof/Machine/Hold.lean ====
section
/-! DEFINITION. The hold queue and the order guard (chapter 3): joining and leaving the queue, blockers, order
clearance, the walk of `RA` and soft clear, expiry, and the H verbs and `RA`. -/

namespace Sys2Proof.Machine

/-! ## The order guard (section 3.4) -/

/-- Two accesses whose byte ranges meet and of which one is a STORE (R59). -/
def conflict (a b : Access) : Bool :=
  rangesMeet a.addr (sizeBytes a.size) b.addr (sizeBytes b.size) && (a.cls == .store || b.cls == .store)

/-- One of these slots holds an access that blocks `a` (R59). -/
def State.blockedBy (s : State) (ahead : List SlotNo) (a : Access) : Bool :=
  ahead.any (fun m => (s.slot m).any (fun b => b.state == .held && conflict b a))

/-- The held slots older than slot n: those that stand ahead of it in the hold queue (R54). -/
def State.ahead (s : State) (n : SlotNo) : List SlotNo := s.hold.takeWhile (fun m => m != n)

/-- A held slot has a blocker, as the hold queue stands (R61). -/
def State.blocked (s : State) (n : SlotNo) : Bool := (s.slot n).any (fun a => s.blockedBy (s.ahead n) a)

/-! ## Joining and leaving the hold queue (sections 3.2 and 3.3) -/

/-- The slot is held with this reason. -/
def State.heldAs (s : State) (n : SlotNo) (r : HoldReason) : Bool := (s.slot n).any (fun a => a.holdReason == some r)

/-- The slot is held with reason WATCH or FREEZE. -/
def State.heldForDecision (s : State) (n : SlotNo) : Bool := s.heldAs n .watch || s.heldAs n .freeze

/-- A slot joins the tail of the hold queue for a decision, with reason WATCH or FREEZE: its timer is loaded (R65) and
`^HD` is raised (R57). -/
def State.holdForDecision (s : State) (n : SlotNo) (r : HoldReason) : State :=
  match s.slot n with
  | none => s
  | some a =>
    let s' := s.setSlot n (some { a with
      state := .held, holdReason := some r, holdTimer := loadTimer s.ctrl.params.holdLimit, pendAction := none })
    let s' := { s' with hold := s'.hold ++ [n] }
    match a.tag with
    | some t => s'.raise (.hd n t a.owner a.addr)
    | none => s'

/-- A held slot, or one being placed, becomes an ORDER slot: no timer, and the given pending action (R56, R71, R81). -/
def State.makeOrder (s : State) (n : SlotNo) (p : PendAction) : State :=
  s.modSlot n (fun a => { a with state := .held, holdReason := some .order, holdTimer := none, pendAction := some p })

/-- A slot joins the tail of the hold queue with reason ORDER (R56, R60). -/
def State.holdForOrder (s : State) (n : SlotNo) (p : PendAction) : State :=
  let s' := s.makeOrder n p
  { s' with hold := s'.hold ++ [n] }

/-- A slot's number leaves the hold queue; the slots behind it close up (R54, R58 step 1). -/
def State.leaveHold (s : State) (n : SlotNo) : State := { s with hold := s.hold.filter (fun m => m != n) }

/-- A held slot is released to the tail of the forward queue (R58, R61). -/
def State.release (s : State) (n : SlotNo) : State := (s.leaveHold n).forwardSlot n

/-- An ORDER slot proceeds with its pending action (R63, R64). -/
def State.proceed (s : State) (n : SlotNo) : State :=
  match (s.slot n).bind Access.pendAction with
  | some .substitute =>
    ((s.leaveHold n).modSlot n Access.released).carryOut n
  | some .forward => s.release n
  | none => s.release n

/-- One slot of an order clearance: an ORDER slot with no blocker proceeds, and is counted (R62). -/
def clearStep (sc : State × Nat) (n : SlotNo) : State × Nat :=
  if sc.1.heldAs n .order && !sc.1.blocked n then (sc.1.proceed n, sc.2 + 1) else sc

/-- Order clearance: the ORDER slots in queue order, each against the queue as it stands when the slot is reached (R62).
It gives the number of slots that left HELD. -/
def State.clearance (s : State) : State × Nat := s.hold.foldl clearStep (s, 0)

/-- One slot of the walk: a WATCH or FREEZE slot is released, or becomes ORDER when it is blocked (R81, step 1). -/
def walkStep (sc : State × Nat) (n : SlotNo) : State × Nat :=
  if sc.1.heldForDecision n then
    if sc.1.blocked n then (sc.1.makeOrder n .forward, sc.2) else (sc.1.release n, sc.2 + 1)
  else sc

/-- The walk of `RA` and of soft clear through the hold queue as it stands (R81, R85); it gives the number released. -/
def State.walk (s : State) : State × Nat := s.hold.foldl walkStep (s, 0)

/-- The walk, and then one order clearance (R81, R85): the state, the slots released, and the slots cleared. -/
def State.releaseAll (s : State) : State × Nat × Nat :=
  let w := s.walk
  let c := w.1.clearance
  (c.1, w.2, c.2)

/-! ## Placement (R9) -/

/-- The number of a slot whose access the order guard finds blocked at placement, where every held slot is older (R60). -/
def State.blockedAtPlacement (s : State) (n : SlotNo) : Bool := (s.slot n).any (fun a => s.blockedBy s.hold a)

/-- Placement of an access with disposition FORWARD (R9). -/
def State.placeForward (s : State) (n : SlotNo) : State :=
  if s.blockedAtPlacement n then s.holdForOrder n .forward else s.forwardSlot n

/-- Placement of an access with disposition SUBSTITUTE (R9). -/
def State.placeSubstitute (s : State) (n : SlotNo) : State :=
  if s.blockedAtPlacement n then s.holdForOrder n .substitute else s.carryOut n

/-! ## Expiry (section 3.6) -/

/-- The hold timer of a held slot is at zero: its expiry is due (R69, R123). -/
def State.expiryDue (s : State) (n : SlotNo) : Bool :=
  (s.slot n).any (fun a => a.state == .held && a.holdTimer == some 0)

/-- A held slot that departs to ANSWERING: it leaves the queue, its record is closed, its entry is appended (R58). -/
def State.answerHeld (s : State) (n : SlotNo) (o : RecordOutcome) (r : Reason) (d : Option Data) : State :=
  ((s.leaveHold n).closeRecord n o (some r) d).answerSlot n r d

/-- The expiry of a hold timer under the expiry policy as it stands (R69 to R73). -/
def State.expire (s : State) (n : SlotNo) : State :=
  match s.ctrl.params.policy with
  | .fail => ((s.answerHeld n .expiredFailed .denied none).raise (.ex n)).clearance.1
  | .release =>
    if s.blocked n then ((s.makeOrder n .forward).markRecord n .releasedByExpiry).raise (.ex n)
    else (((s.release n).markRecord n .releasedByExpiry).raise (.ex n)).clearance.1

/-! ## The H verbs and `RA` (section 3.7) -/

/-- The answer `= s c` of `HR`, `HA` and `HF` (R76). -/
def departureAnswer (n : SlotNo) (sc : State × Nat) : State × Answer :=
  (sc.1, answerFields [digit n, hexPlain sc.2])

/-- One item line of `HL` (R75, Table 10-7). -/
def holdLine (n : SlotNo) (a : Access) : Text :=
  fields '-' [digit n, orDash digit a.tag, hexWord a.arrival, classWord a.cls, hexWord a.addr, sizeText a.size,
    orDash holdReasonWord a.holdReason, orDash pendActionWord a.pendAction, orDash digit a.owner,
    orDash hexCount a.holdTimer]

/-- `HL` (R75). -/
def cmdHl (o : Operands) (s : State) : State × Answer :=
  match readNone o with
  | none => (s, .refused .bo)
  | some _ => (s, answerListing (s.hold.filterMap (fun n => (s.slot n).map (holdLine n))))

/-- The oldest slot of the hold queue held with reason WATCH or FREEZE (R77). -/
def State.oldestForDecision (s : State) : Option SlotNo := s.hold.find? (fun n => s.heldForDecision n)

/-- `HR`, with and without a slot operand (R76, R77). -/
def cmdHr (o : Operands) (s : State) : State × Answer :=
  match readOptDigit o with
  | none => (s, .refused .bo)
  | some (some n) =>
    if !s.slotIs n .held then (s, .refused .nh)
    else if s.heldAs n .order then (s, .refused .bz)
    else if s.blocked n then (s, .refused .ob)
    else departureAnswer n (s.release n).clearance
  | some none =>
    match s.oldestForDecision with
    | none => (s, .refused .em)
    | some n => departureAnswer n (s.release n).clearance

/-- The data operand of `HA` against the access: the read data of a FETCH or LOAD (R78), nothing for a STORE (R79);
`none` where the operand is refused. -/
def answerData (a : Access) (v : Option Text) : Option (Option Data) :=
  match a.cls, v with
  | .store, none => some none
  | .store, some _ => none
  | .fetch, some t => (readValue a.size t).map some
  | .fetch, none => none
  | .load, some t => (readValue a.size t).map some
  | .load, none => none

/-- `HA` (R78, R79). -/
def cmdHa (o : Operands) (s : State) : State × Answer :=
  match readHa o with
  | none => (s, .refused .bo)
  | some (n, v) =>
    match (s.slot n).filter (fun a => a.state == .held) with
    | none => (s, .refused .nh)
    | some a =>
      match answerData a v with
      | none => (s, .refused .bo)
      | some d => departureAnswer n (s.answerHeld n .answered .ok d).clearance

/-- `HF` (R80). -/
def cmdHf (o : Operands) (s : State) : State × Answer :=
  match readDigit 16 o with
  | none => (s, .refused .bo)
  | some n =>
    if s.slotIs n .held then departureAnswer n (s.answerHeld n .failed .denied none).clearance
    else (s, .refused .nh)

/-- `RA` (R81). -/
def cmdRa (o : Operands) (s : State) : State × Answer :=
  match readNone o with
  | none => (s, .refused .bo)
  | some _ => (s.releaseAll.1, answerFields [hexPlain s.releaseAll.2.1, hexPlain s.releaseAll.2.2])

end Sys2Proof.Machine
end

