-- ==== Sys2Proof/Machine/Near.lean ====
section
/-! DEFINITION. The near link (sections 1.2 to 1.5): acceptance with judgement and placement, delivery, and the near
reset. -/

namespace Sys2Proof.Machine

/-- The four conditions under which the near link takes an offered request (R1). -/
def State.mayAccept (s : State) (req : NearRequest) : Bool :=
  !(s.ctrl.op == .gated) && !s.near.reset && s.freeSlot.isSome && !s.live req.tag

/-- The store data of a request: its lanes 0 to size-1, for a STORE (R3, R190). -/
def requestData (req : NearRequest) : Option Data :=
  match req.cls with
  | .store => some (maskData req.size req.lanes)
  | .fetch => none
  | .load => none

/-- What a judgement sees of a request. -/
def judgedOf (req : NearRequest) : Judged :=
  { cls := req.cls, addr := req.addr, size := req.size, data := requestData req }

/-- The slot record of a request at its acceptance (R3, R4), before its placement has decided the slot's state. -/
def newAccess (req : NearRequest) (arrival : Word) (disp : Disposition) (owner : Option EntryNo) : Access where
  state      := .queued
  tag        := some req.tag
  cls        := req.cls
  addr       := req.addr
  size       := req.size
  data       := requestData req
  arrival    := arrival
  disp       := disp
  owner      := owner
  logSeq     := none
  holdReason := none
  holdTimer  := none
  pendAction := none
  farTimer   := none

/-- The slot takes the request, and the arrival counter goes on by one (R3). -/
def State.takeSlot (s : State) (n : SlotNo) (a : Access) : State :=
  let s := s.setSlot n (some a)
  { s with transit := { s.transit with arrivals := s.transit.arrivals + 1 } }

/-- The capture record that a judgement asks for, given its sequence number (R39, R101). -/
def newRecord (s : State) (n : SlotNo) (req : NearRequest) (fired : List EntryNo) (owner : EntryNo)
    (disp : Disposition) (q : Word) : CaptureRecord where
  seq    := q
  stamp  := s.time.stamp
  slot   := n
  tag    := req.tag
  cls    := req.cls
  addr   := req.addr
  size   := req.size
  data   := requestData req
  fired  := fired
  owner  := owner
  disp   := disp
  status := .opened none

/-- A misaligned request is answered ALIGN at its acceptance; its store data is not kept (R8). -/
def State.acceptMisaligned (s : State) (n : SlotNo) (req : NearRequest) : State :=
  (s.takeSlot n { newAccess req s.transit.arrivals .align none with state := .answering, data := none }).respond
    { tag := req.tag, reason := .align, data := none, slot := some n }

/-- An aligned request in BYPASS receives FORWARD (R7). -/
def State.acceptForward (s : State) (n : SlotNo) (req : NearRequest) : State :=
  (s.takeSlot n (newAccess req s.transit.arrivals .forward none)).placeForward n

/-- An aligned request in FROZEN receives HOLD with hold reason FREEZE (R7). -/
def State.acceptFrozen (s : State) (n : SlotNo) (req : NearRequest) : State :=
  (s.takeSlot n (newAccess req s.transit.arrivals .hold none)).holdForDecision n .freeze

/-- Placement by disposition of a judged access (R9); a HOLD from judgement has hold reason WATCH (R7). -/
def State.placeJudged (s : State) (n : SlotNo) (d : Disposition) : State :=
  match d with
  | .forward => s.placeForward n
  | .substitute => s.placeSubstitute n
  | .hold => s.holdForDecision n .watch
  | .align => s

/-- A capture record is made, or lost, when the judgement asks for one (R39, R101). -/
def State.recordJudged (s : State) (n : SlotNo) (req : NearRequest) (fired : List EntryNo) (owner : Option EntryNo)
    (act : Option Action) : State :=
  match owner with
  | some e => if recordWanted act then s.makeRecord n (newRecord s n req fired e (dispOfAction act)) else s
  | none => s

/-- `^LF` is due after the other notices of the judgement (R105). -/
def State.lossNoticed (s : State) (n : SlotNo) (req : NearRequest) (fired : List EntryNo) (owner : Option EntryNo)
    (act : Option Action) : Bool :=
  match owner with
  | some e => recordWanted act && s.firstLoss (newRecord s n req fired e (dispOfAction act))
  | none => false

/-- An aligned request in WATCH: judgement, alerts, slot, record, placement, entry to FROZEN, in the order of R42 and
R105. -/
def State.acceptJudged (s : State) (n : SlotNo) (req : NearRequest) : State :=
  let j := judgedOf req
  let fired := s.firedEntries j
  let act := s.winning fired
  let owner := s.ownerOf fired
  let s1 := (s.raiseAlerts fired).judgeEntries j
  let s2 := s1.takeSlot n (newAccess req s.transit.arrivals (dispOfAction act) owner)
  let s3 := s2.recordJudged n req fired owner act
  let s4 := s3.placeJudged n (dispOfAction act)
  let s5 := if act = some .freeze then s4.freeze .watch else s4
  if s2.lossNoticed n req fired owner act then s5.raise .lf else s5

/-- The acceptance of one request into slot n (R7). GATED takes none (R1). -/
def State.accept (s : State) (n : SlotNo) (req : NearRequest) : State :=
  if aligned req.addr req.size then
    match s.ctrl.op with
    | .gated => s
    | .bypass => s.acceptForward n req
    | .frozen => s.acceptFrozen n req
    | .watch => s.acceptJudged n req
  else s.acceptMisaligned n req

/-- The near link with a request offered: it is taken into the lowest-numbered FREE slot under the conditions of R1, and
stays offered, the part unchanged, when one of them fails. -/
def State.offerRequest (s : State) (req : NearRequest) : State :=
  if s.mayAccept req then
    match s.freeSlot with
    | some n => s.accept n req
    | none => s
  else s

/-- The lanes of a near response (R190): the read data, or 00h. -/
def respLanes (e : RespEntry) : Data := e.data.getD 0

/-- The item that a near response queue entry passes on the channel (Table 10-2). -/
def responseItem (e : RespEntry) : NearResponse := { tag := e.tag, reason := e.reason, lanes := respLanes e }

/-- The slot that a delivered entry names becomes FREE (R11). -/
def State.freeNamed (s : State) (n : Option SlotNo) : State :=
  match n with
  | some n => s.setSlot n none
  | none => s

/-- The requester takes the head entry of the near response queue (R11). -/
def State.deliver (s : State) : State :=
  match s.near.responses with
  | [] => s
  | e :: rest =>
    ({ s with near := { s.near with responses := rest, lastResponse := some (responseItem e) } }).freeNamed e.slot

/-- One slot at the assertion of NEAR_RESET (Table 1-5). -/
def State.nearResetSlot (s : State) (n : SlotNo) : State :=
  match s.slot n with
  | none => s
  | some a =>
    match a.state with
    | .held => (s.closeRecord n .aborted (some .abort) none).setSlot n none
    | .queued => (s.closeRecord n .aborted (some .abort) none).setSlot n none
    | .issued =>
      (s.closeRecord n .aborted (some .abort) none).modSlot n
        (fun a => { a with state := .orphan, tag := none, farTimer := none })
    | .answering => s.setSlot n none
    | .orphan => s

/-- The assertion of NEAR_RESET (R22, R84). A level that is already asserted gives no event (R194). -/
def State.assertNearReset (s : State) : State :=
  if s.near.reset then s
  else
    let s := allSixteen.foldl State.nearResetSlot s
    let s := { s with
      near := { s.near with responses := [], reset := true }
      far := { s.far with forward := [] }
      hold := [] }
    s.raise .nr

/-- The negation of NEAR_RESET (R23). -/
def State.negateNearReset (s : State) : State := { s with near := { s.near with reset := false } }

end Sys2Proof.Machine
end

