-- ==== Sys2Proof/Machine/Control.lean ====
section
/-! DEFINITION. The state controller (chapter 7), the alert verb (chapter 6), the far link reset and the transit listing
(chapter 1), and the memory verbs (chapter 9): the rules of those verbs. -/

namespace Sys2Proof.Machine

/-! ## Far link reset and transit status (sections 1.11 and 1.12) -/

/-- One traffic slot at a far link reset (Table 1-6), with the numbers of ABORT entries and of freed orphans so far. -/
def farResetStep (acc : State × Nat × Nat) (n : SlotNo) : State × Nat × Nat :=
  match acc.1.slot n with
  | none => acc
  | some a =>
    match a.state with
    | .issued =>
      (((acc.1.respondLoose a.tag .abort).closeRecord n .aborted (some .abort) none).setSlot n none,
        acc.2.1 + 1, acc.2.2)
    | .orphan => (acc.1.setSlot n none, acc.2.1, acc.2.2 + 1)
    | .held => acc
    | .queued => acc
    | .answering => acc

/-- Slot M at a far link reset (Table 1-6): an ISSUED access ends and is discarded (R186), an orphan is freed. -/
def farResetM (acc : State × Nat × Nat) : State × Nat × Nat :=
  match acc.1.transit.slotM with
  | none => acc
  | some m =>
    match m.state with
    | .issued =>
      let s := acc.1.setSlotM none
      ({ s with mem := { s.mem with inHand := none } }, acc.2.1, acc.2.2)
    | .orphan => (acc.1.setSlotM none, acc.2.1, acc.2.2 + 1)
    | .queued => acc

/-- The effect of `FR` on every slot, with the two numbers of its answer, and FAR_RESET asserted (R24, R25). -/
def State.farReset (s : State) : State × Nat × Nat :=
  let acc := farResetM (allSixteen.foldl farResetStep (s, 0, 0))
  ({ acc.1 with far := { acc.1.far with pulse := some Config.pulseTicks } }, acc.2.1, acc.2.2)

/-- `FR` (R24). -/
def cmdFr (o : Operands) (s : State) : State × Answer :=
  match readNone o with
  | none => (s, .refused .bo)
  | some _ => (s.farReset.1, answerFields [hexPlain s.farReset.2.1, hexPlain s.farReset.2.2])

/-- The remaining ticks of a `TS` line: of the hold timer while HELD, of the far timer while ISSUED (Table 1-7). -/
def remainingTicks (a : Access) : Option Count :=
  match a.state with
  | .held => a.holdTimer
  | .issued => a.farTimer
  | .queued => none
  | .answering => none
  | .orphan => none

/-- The `TS` line of a traffic slot (Tables 1-7 and 10-7). -/
def slotLine (n : SlotNo) (a : Access) : Text :=
  fields '-' [digit n, slotStateWord a.state, orDash digit a.tag, classWord a.cls, hexWord a.addr, sizeText a.size,
    hexWord a.arrival, dispWord a.disp, orDash digit a.owner, orDash hexWord a.logSeq,
    orDash holdReasonWord a.holdReason, orDash hexCount (remainingTicks a)]

/-- The far remaining ticks of slot M, while ISSUED (Table 1-7). -/
def remainingTicksM (m : MAccess) : Option Count :=
  match m.state with
  | .issued => m.farTimer
  | .queued => none
  | .orphan => none

/-- The `TS` line of slot M (Tables 1-7 and 10-7). -/
def slotMLine (m : MAccess) : Text :=
  fields '-' [['M'], mStateWord m.state, ['-'], classWord m.cls, hexWord m.addr, sizeText m.size, ['-'], ['-'], ['-'],
    ['-'], ['-'], orDash hexCount (remainingTicksM m)]

/-- The item lines of `TS`: the traffic slots in ascending number, then slot M (R26). -/
def State.transitLines (s : State) : List Text :=
  allSixteen.filterMap (fun n => (s.slot n).map (slotLine n)) ++ (s.transit.slotM.map slotMLine).toList

/-- `TS` (R26). -/
def cmdTs (o : Operands) (s : State) : State × Answer :=
  match readNone o with
  | none => (s, .refused .bo)
  | some _ => (s, answerListing s.transitLines)

/-! ## Alerts (section 6.4) -/

/-- `AK`, with and without an entry operand (R127, R128). -/
def cmdAk (o : Operands) (s : State) : State × Answer :=
  match readOptDigit o with
  | none => (s, .refused .bo)
  | some (some n) =>
    if s.alerts.contains n then ({ s with alerts := s.alerts.filter (fun e => e != n) }, answerFields [digit n])
    else (s, .refused .nf)
  | some none => ({ s with alerts := [] }, answerFields [hexPlain s.alerts.length])

/-! ## Operating states (section 7.2) -/

/-- The answer `=` alone. -/
def answerBare : Answer := answerFields []

/-- `GO` (R134). In GATED, which only a preload line reaches, the state becomes WATCH and preload ends. -/
def cmdGo (o : Operands) (s : State) : State × Answer :=
  match readNone o with
  | none => (s, .refused .bo)
  | some _ =>
    match s.ctrl.op with
    | .bypass => (s.enter .watch, answerFields [opStateWord .watch])
    | .watch => (s, answerBare)
    | .frozen =>
      ({ s with ctrl := { s.ctrl with ret := some .watch } }, answerFields [opStateWord .frozen, opStateWord .watch])
    | .gated => (s.enter .watch, answerFields [opStateWord .watch])

/-- `BY` (R135). In GATED, which only a preload line reaches, the state becomes BYPASS and preload ends. -/
def cmdBy (o : Operands) (s : State) : State × Answer :=
  match readNone o with
  | none => (s, .refused .bo)
  | some _ =>
    match s.ctrl.op with
    | .watch => (s.enter .bypass, answerFields [opStateWord .bypass])
    | .bypass => (s, answerBare)
    | .frozen =>
      ({ s with ctrl := { s.ctrl with ret := some .bypass } }, answerFields [opStateWord .frozen, opStateWord .bypass])
    | .gated => (s.enter .bypass, answerFields [opStateWord .bypass])

/-- `FZ` (R136). -/
def cmdFz (o : Operands) (s : State) : State × Answer :=
  match readNone o with
  | none => (s, .refused .bo)
  | some _ =>
    match s.ctrl.op with
    | .bypass => (s.freeze .bypass, answerFields [opStateWord .frozen, opStateWord .bypass])
    | .watch => (s.freeze .watch, answerFields [opStateWord .frozen, opStateWord .watch])
    | .frozen => (s, answerBare)
    | .gated => (s, .refused .bz)

/-- `TH` (R137). -/
def cmdTh (o : Operands) (s : State) : State × Answer :=
  match readNone o with
  | none => (s, .refused .bo)
  | some _ =>
    match s.ctrl.op, s.ctrl.ret with
    | .frozen, some r => ((s.enter (opOfReturn r)).raise .th, answerFields [returnStateWord r])
    | .frozen, none => (s, .refused .bz)
    | .gated, _ => (s, .refused .bz)
    | .bypass, _ => (s, .refused .bz)
    | .watch, _ => (s, .refused .bz)

/-! ## Soft clear (section 7.3) -/

/-- Every OPEN record is closed CLEARED, and each slot that named one loses its log sequence number (R111). -/
def State.clearRecords (s : State) : State :=
  { s with
    log := { s.log with records := s.log.records.map (fun r => r.close .cleared none none) }
    transit := { s.transit with
      slots := Vector.ofFn (fun n : Fin 16 => (s.slot n).map (fun a => { a with logSeq := none })) } }

/-- The log emptied, with its counter and lost count at 0 and its mode kept (R111). -/
def Log.emptied (l : Log) : Log := { records := [], counter := 0, lost := 0, mode := l.mode }

/-- Steps 2 to 4 of soft clear (R139): entries, records, log and alert set. -/
def State.wipeTables (s : State) : State :=
  let s := s.entriesOff.recordsInvalid
  { s with log := s.log.emptied, alerts := [] }

/-- Step 5 of soft clear (R139); from a preload line the state stays GATED (R141). -/
def State.clearedState (s : State) : State :=
  match s.ctrl.op with
  | .gated => s
  | .bypass => s.enter .bypass
  | .watch => s.enter .bypass
  | .frozen => s.enter .bypass

/-- `CL` (R139, R141). -/
def cmdCl (o : Operands) (s : State) : State × Answer :=
  match readNone o with
  | none => (s, .refused .bo)
  | some _ =>
    let h := s.clearRecords.releaseAll
    (h.1.wipeTables.clearedState, answerFields [hexPlain h.2.1, hexPlain h.2.2])

/-! ## Device parameters and status (sections 7.4 and 7.5) -/

/-- The seven parameters in the print order of Table 10-8. -/
def paramFields (p : Params) : List Text :=
  [hexCount p.holdLimit, policyLetter p.policy, hexCount p.farTimeout, [hexChar p.prescale.toNat], flagText p.quiet,
   [hexChar p.baud.toNat], parityLetter p.parity]

/-- `SP` (R142). Its answer takes new line settings into use later when it changes D or Y (R144). -/
def cmdSp (o : Operands) (s : State) : State × Answer :=
  match readSp s.ctrl.params o with
  | none => (s, .refused .bo)
  | some p =>
    ({ s with ctrl := { s.ctrl with params := p } },
      if p.baud = s.ctrl.params.baud ∧ p.parity = s.ctrl.params.parity then answerFields (paramFields p)
      else .settings (fields '=' (paramFields p)))

/-- The state word of slot M, FREE included (R145). -/
def slotMWord (m : Option MAccess) : Text :=
  match m with
  | none => "FREE".toList
  | some m => mStateWord m.state

/-- The fields of an `ST` report (R145, Table 10-8). -/
def State.statusReport (s : State) : List Text :=
  [opStateWord s.ctrl.op, orDash returnStateWord s.ctrl.ret, hexPlain s.busySlots, slotMWord s.transit.slotM,
   hexPlain s.near.responses.length, hexPlain s.hold.length, hexPlain s.far.forward.length,
   hexPlain s.log.records.length, hexCount s.log.lost, hexWord (s.log.counter + 1), logModeLetter s.log.mode,
   entryList s.alerts, hexFixed 2 s.console.noticesLost.toNat] ++ paramFields s.ctrl.params

/-- `ST` (R145). -/
def cmdSt (o : Operands) (s : State) : State × Answer :=
  match readNone o with
  | none => (s, .refused .bo)
  | some _ => (s, answerFields s.statusReport)

/-! ## Memory cursor and console memory access (chapter 9) -/

/-- `MA` (R179). -/
def cmdMa (o : Operands) (s : State) : State × Answer :=
  match readMa s.mem o with
  | none => (s, .refused .bo)
  | some (a, z) =>
    ({ s with mem := { s.mem with cursorAddr := a, cursorSize := z } }, answerFields [hexWord a, sizeText z])

/-- The waiting party of an access (R182). -/
def partyOf : Source → Party
  | .console => .console
  | .preload => .preload

/-- A slot M access begins, or is refused `?BZ` when slot M is not FREE (R181, R182). -/
def State.startAccess (s : State) (h : InHand) (c : AccClass) : State × Answer :=
  match s.transit.slotM with
  | some _ => (s, .refused .bz)
  | none =>
    ({ s.setSlotM (some { state := .queued, cls := c, addr := h.addr, size := h.size, data := h.value,
                          farTimer := none }) with
        mem := { s.mem with inHand := some h } }, .begun)

/-- `MR` (R180 to R182). -/
def cmdMr (src : Source) (o : Operands) (s : State) : State × Answer :=
  match readMa s.mem o with
  | none => (s, .refused .bo)
  | some (a, z) =>
    s.startAccess { command := .mr, addr := a, size := z, value := none, party := partyOf src } .load

/-- `MW` (R180 to R182). -/
def cmdMw (src : Source) (o : Operands) (s : State) : State × Answer :=
  match readMw s.mem o with
  | none => (s, .refused .bo)
  | some (a, z, v) =>
    s.startAccess { command := .mw, addr := a, size := z, value := some v, party := partyOf src } .store

/-! ## All verbs -/

/-- The rule of each verb (R163, test 7). -/
def verbRule (v : Verb) (src : Source) (o : Operands) (s : State) : State × Answer :=
  match v with
  | .fr => cmdFr o s
  | .ts => cmdTs o s
  | .ws => cmdWs o s
  | .wr => cmdWr o s
  | .wa => cmdWa o s
  | .wd => cmdWd o s
  | .wx => cmdWx o s
  | .wq => cmdWq o s
  | .hl => cmdHl o s
  | .hr => cmdHr o s
  | .ha => cmdHa o s
  | .hf => cmdHf o s
  | .ra => cmdRa o s
  | .ss => cmdSs o s
  | .sx => cmdSx o s
  | .sq => cmdSq o s
  | .lr => cmdLr o s
  | .ln => cmdLn o s
  | .lc => cmdLc o s
  | .lm => cmdLm o s
  | .ak => cmdAk o s
  | .go => cmdGo o s
  | .byp => cmdBy o s
  | .fz => cmdFz o s
  | .th => cmdTh o s
  | .cl => cmdCl o s
  | .st => cmdSt o s
  | .sp => cmdSp o s
  | .ma => cmdMa o s
  | .mr => cmdMr src o s
  | .mw => cmdMw src o s

/-- The general operand grammar, then the verb's own rule (R163, tests 6 and 7). -/
def runVerb (v : Verb) (src : Source) (ops : List Token) (s : State) : State × Answer :=
  match readOperands ops with
  | none => (s, .refused .bo)
  | some o => verbRule v src o s

end Sys2Proof.Machine
end

