-- ==== Sys2Proof/Machine/Console.lean ====
section
/-! DEFINITION. The console line (chapter 8): character frames, line assembly, service of a line, responses, break, the
notice queue's way out, and the transmitter. -/

namespace Sys2Proof.Machine

/-! ## Character frames (R153, R154) -/

/-- The number of ones among the data bits is odd. -/
def oddOnes (b : Byte) : Bool :=
  (b.getLsbD 0).xor ((b.getLsbD 1).xor ((b.getLsbD 2).xor ((b.getLsbD 3).xor ((b.getLsbD 4).xor
    ((b.getLsbD 5).xor ((b.getLsbD 6).xor (b.getLsbD 7)))))))

/-- The level of the parity bit of a byte, when the parity in use has one (R153). -/
def parityLevel (p : Parity) (b : Byte) : Option Bool :=
  match p with
  | .none => none
  | .even => some (oddOnes b)
  | .odd => some (!oddOnes b)

/-- The levels of a character frame on the line: start bit, data bits least significant first, parity bit, stop bit. -/
def frameBits (p : Parity) (b : Byte) : List Bool :=
  false :: (List.range 8).map b.getLsbD ++ (parityLevel p b).toList ++ [true]

/-- A character is bad: its stop bit is low, or its parity bit disagrees with the parity it was received under (R154). -/
def badFrame (p : Parity) (f : RxFrame) : Bool :=
  !f.stopHigh || (parityLevel p f.data).any (fun l => l != f.parityBit)

/-- The bit rate of a baud code, in bits per second (Table 7-3). -/
def baudRate (c : BitVec 2) : Nat :=
  if c = 0 then 9600 else if c = 1 then 19200 else if c = 2 then 57600 else 115200

/-- The bytes of a line the part sends: its characters, then CR and LF (R168). -/
def lineBytes (t : Text) : List Byte := t.map (fun c => BitVec.ofNat 8 c.toNat) ++ [0x0D, 0x0A]

/-! ## Line assembly (R159, R160) -/

/-- The first mark stays (R160). -/
def Assembly.withMark (a : Assembly) (m : Mark) : Assembly := { a with mark := some (a.mark.getD m) }

/-- A printable character (R159). -/
def printable (b : Byte) : Bool := 0x20 ≤ b.toNat && b.toNat ≤ 0x7E

/-- A byte other than CR, ESC and LF taken into a line (R159). -/
def Assembly.take (a : Assembly) (b : Byte) : Assembly :=
  if printable b then
    if a.text.length < Config.lineRoom ∧ a.mark ≠ some .ll then { a with text := a.text ++ [Char.ofNat b.toNat] }
    else a.withMark .ll
  else if b = 0x08 then { a with text := a.text.dropLast }
  else a.withMark .ch

/-- A line that holds nothing yet. -/
def Assembly.empty : Assembly := { text := [], mark := none }

/-! ## Line settings in use (R144) -/

/-- The settings under which the line being sent goes out: those in use when it was begun (R174, R176); without one, those in
use. -/
def Console.txSettings (c : Console) : LineSettings :=
  c.begunUnder.getD { baud := c.baudInUse, parity := c.parityInUse }

/-- The console port takes the D and Y parameters, as they stand, into use: one pair for the receiver and the transmitter, in
one event (R144, R153). What has been begun goes on under the settings it was begun under, a frame being received (R154) and
a line being sent, which is then a notice or `^NL` (R174, R176; notes/assumptions/27.md). -/
def State.takeSettings (s : State) : State :=
  { s with console := { s.console with
      baudInUse := s.ctrl.params.baud
      parityInUse := s.ctrl.params.parity
      begunUnder := if s.console.tx = .idle then s.console.begunUnder else some s.console.txSettings } }

/-! ## Serving a line (R163, R167, R170) -/

/-- A line is IN SERVICE and its response is pending, whole (R169, R170). -/
def State.reply (s : State) (l : Line) (ls : List Text) (settings : Bool) : State :=
  { s with console := { s.console with
      inService := some { line := l, stage := .responding, settings := settings }, response := some ls } }

/-- A line IN SERVICE with the answer of its verb; a slot M access begun answers later (R167). -/
def answerLine (l : Line) (r : State × Answer) : State :=
  match r.2 with
  | .lines ls => r.1.reply l ls false
  | .settings t => r.1.reply l [t] true
  | .refused c => r.1.reply l [refusalText c] false
  | .begun => { r.1 with console := { r.1.console with
      inService := some { line := l, stage := .executing, settings := false } } }

/-- Tests 1 and 2 of R163, then what follows them. -/
def State.serveUnless (s : State) (l : Line) (next : State) : State :=
  if s.ctrl.op = .gated then s.reply l [refusalText .pl] false
  else if l.overrun then s.reply l [refusalText .ov] false
  else next

/-- Tests 3 to 7 of R163 for the text and mark of a line, from the console or from the preload stream. -/
def interpret (src : Source) (mark : Option Mark) (text : Text) (s : State) : State × Answer :=
  match mark with
  | some m => (s, .refused (markCode m))
  | none =>
    match tokens text with
    | [] => (s, answerBare)
    | v :: ops =>
      match verbOf v with
      | none => (s, .refused .uv)
      | some v => runVerb v src ops s

/-- A completed line enters service (R161, R163). -/
def State.serveLine (s : State) (l : Line) : State :=
  s.serveUnless l (answerLine l (interpret .console l.mark l.text s))

/-- The service of the line IN SERVICE ends: settings that its end takes into use are taken, its slot becomes FREE, and
a WAITING line enters service in the same event (R144, R161, R167). -/
def State.endService (s : State) : State :=
  let s1 := if s.console.inService.any Service.settings then s.takeSettings else s
  let s2 := { s1 with console := { s1.console with inService := none, response := none } }
  match s2.console.waiting with
  | none => s2
  | some l => { s2 with console := { s2.console with waiting := none } }.serveLine l

/-- A line completed by its CR: the overrun flag goes to it (R162); it enters service, or waits (R161). -/
def State.completeLine (s : State) (text : Text) (mark : Option Mark) : State :=
  let l : Line := { text := text, mark := mark, overrun := s.console.overrun }
  let s' := { s with console := { s.console with assembling := none, overrun := false } }
  if s.console.inService.isNone then s'.serveLine l
  else { s' with console := { s'.console with waiting := some l } }

/-! ## Characters (R158, R159) -/

/-- A line slot is FREE, when none is ASSEMBLING: not both of WAITING and IN SERVICE are occupied (R157, R158). -/
def slotFree (c : Console) : Bool := c.waiting.isNone || c.inService.isNone

/-- A character of an ASSEMBLING line, or of one that it begins: `none` is a framing or parity fault (R159). -/
def State.assemble (s : State) (a : Assembly) (ch : Option Byte) : State :=
  match ch with
  | none => { s with console := { s.console with assembling := some (a.withMark .fr) } }
  | some b =>
    if b = 0x0D then s.completeLine a.text a.mark
    else if b = 0x1B then { s with console := { s.console with assembling := none } }
    else { s with console := { s.console with assembling := some (a.take b) } }

/-- Line assembly takes a character (R158): LF is ignored; BS and ESC begin no line; a character that no slot can take
is dropped and sets the overrun flag (R162). -/
def State.takeCharacter (s : State) (ch : Option Byte) : State :=
  if ch = some 0x0A then s
  else
    match s.console.assembling with
    | some a => s.assemble a ch
    | none =>
      if slotFree s.console then
        if ch = some 0x08 ∨ ch = some 0x1B then s else s.assemble Assembly.empty ch
      else { s with console := { s.console with overrun := true } }

/-- The character that a received frame hands to assembly (R154): its byte, or `none` for a fault. The frame is
received under the parity in use when its start bit began. -/
def State.received (s : State) (f : RxFrame) : Option Byte :=
  if badFrame (f.begunWith.getD s.console.parityInUse) f then none else some f.data

/-! ## Whole lines: the verbs' own rows (notes/assumptions/6.md) -/

/-- The line that a verb's row spells arrives on the console, completed by its CR: it enters service at once, or waits
in a FREE slot (R161); with no slot FREE it is dropped and the overrun flag is set (R158, R162). -/
def State.consoleCommand (s : State) (v : Verb) (ops : List Token) : State :=
  let c := s.console
  let l : Line := { text := lineText v ops, mark := none, overrun := c.overrun }
  if c.inService.isNone then
    let s' := { s with console := { c with overrun := false } }
    s'.serveUnless l (answerLine l (runVerb v .console ops s'))
  else if c.waiting.isNone && c.assembling.isNone then
    { s with console := { c with waiting := some l, overrun := false } }
  else { s with console := { c with overrun := true } }

/-! ## Transmitter (R173 to R175) -/

/-- The console port with an idle transmitter chooses the next line to send (R173, R175). -/
def chooseLine (c : Console) : Console :=
  match c.response with
  | some (l :: ls) => { c with tx := .response l, response := some ls }
  | some [] =>
    match c.notices with
    | [] => c
    | n :: ns =>
      if c.noticesLost = 0 then { c with tx := .notice n, notices := ns }
      else { c with tx := .lost c.noticesLost n, notices := ns, noticesLost := 0 }
  | none =>
    match c.notices with
    | [] => c
    | n :: ns =>
      if c.noticesLost = 0 then { c with tx := .notice n, notices := ns }
      else { c with tx := .lost c.noticesLost n, notices := ns, noticesLost := 0 }

/-- At the end of each event an idle transmitter chooses a line if one waits (R175; notes/assumptions/9.md). -/
def State.kick (s : State) : State := if s.console.tx = .idle then { s with console := chooseLine s.console } else s

/-- The state with the transmitter changed. -/
def State.setTx (s : State) (t : Tx) : State := { s with console := { s.console with tx := t } }

/-- Settings that wait for the end of the line being transmitted are taken into use (R144). -/
def State.takeDueSettings (s : State) : State :=
  if s.console.settingsDue then { s with console := { s.console with settingsDue := false } }.takeSettings else s

/-- The line being sent is at its end: the transmitter is between two lines, and settings that wait for that are taken
into use (R144, R174). -/
def State.endLine (s : State) : State :=
  ({ s with console := { s.console with tx := .idle, begunUnder := none } }).takeDueSettings

/-- The transmitter has sent the last character of the line it was sending (R175): after `^NL` the notice follows
(R173); after the last line of a response its service ends (R170). -/
def State.finishLine (s : State) : State :=
  match s.console.tx with
  | .idle => s
  | .notice _ => s.endLine
  | .lost _ n => s.endLine.setTx (.notice n)
  | .response _ =>
    let s' := s.endLine
    match s'.console.response with
    | some (_ :: _) => s'
    | some [] => s'.endService
    | none => s'.endService

/-! ## Break (R156) -/

/-- The transmitter is sending a line of the pending response. -/
def sendingResponse (c : Console) : Bool :=
  match c.tx with
  | .response _ => true
  | .idle => false
  | .notice _ => false
  | .lost _ _ => false

/-- Who waits for an access: a party becomes NONE when its command is abandoned (R178). -/
def State.abandon (s : State) (p : Party) : State :=
  { s with mem := { s.mem with
      inHand := s.mem.inHand.map (fun h => if h.party = p then { h with party := .nobody } else h) } }

/-- Step 3 of R156: the response of the line IN SERVICE is suppressed. -/
def State.suppress (s : State) : State :=
  match s.console.inService with
  | none => s
  | some v =>
    match v.stage with
    | .executing => s.abandon .console
    | .responding =>
      if sendingResponse s.console then { s with console := { s.console with response := some [] } }
      else s.endService

/-- Steps 1 to 4 of R156. -/
def State.breakConsole (s : State) : State :=
  (({ s with console := { s.console with assembling := none, waiting := none, overrun := false } }).suppress).raise .bk

end Sys2Proof.Machine
end

