-- ==== Sys2Proof/Machine/Stream.lean ====
section
/-! DEFINITION. The preload port (section 7.6): line assembly from the stream, execution of a preload line, the ends of
preload, and the end of a console memory access (section 9.5), which a preload line may await. -/

namespace Sys2Proof.Machine

/-- A preload line executes `MR` or `MW`: the port waits (R148). -/
def State.preloadWaits (s : State) : Bool := s.mem.inHand.any (fun h => h.party == .preload)

/-- Preload runs: the part is GATED (R133, R146). -/
def State.preloading (s : State) : Bool := s.ctrl.op == .gated

/-- The preload port with nothing assembled, at the start of a line. -/
def Preload.lineStart (p : Preload) : Preload := { p with line := Assembly.empty, atStart := true }

/-- Preload ends normally in the given state: `^PL OK n` is raised with the line count (R150). -/
def State.preloadEnd (s : State) (o : OpState) : State := (s.enter o).raise (.plOk s.preload.lines)

/-- Preload ends with an error (R151, R152): tables wiped, BYPASS, the waiting party PRELOAD becomes NONE (R178), and
`^PL ER` is raised with the number of the failing line, the line count plus one. -/
def State.preloadFail (s : State) (c : Code) : State :=
  let s1 := (s.entriesOff.recordsInvalid.enter .bypass).abandon .preload
  { s1 with preload := s1.preload.lineStart }.raise (.plEr (s.preload.lines + 1) c)

/-- An executed preload line is counted (R148). -/
def State.countLine (s : State) : State := { s with preload := { s.preload with lines := s.preload.lines + 1 } }

/-- A preload `SP` that changed D or Y: the port takes the settings at once when it transmits nothing, otherwise when it
finishes the line it transmits (R144). -/
def State.preloadSettings (s : State) : State :=
  if s.console.tx = .idle then s.takeSettings else { s with console := { s.console with settingsDue := true } }

/-- An executed line is counted, and preload ends normally when the line has left GATED (R148, R150). -/
def State.preloadCounted (s : State) : State :=
  let s' := s.countLine
  if s'.preloading then s' else s'.raise (.plOk s'.preload.lines)

/-- The execution of a preload line is complete (R148): its response is discarded; a refusal ends preload with an error. -/
def preloadDone (r : State × Answer) : State :=
  match r.2 with
  | .lines _ => r.1.preloadCounted
  | .settings _ => r.1.preloadSettings.preloadCounted
  | .refused c => r.1.preloadFail c
  | .begun => r.1

/-- The stream limit (R149): preload that has read offset FFFFh and not ended, with no line in execution, ends with PS. -/
def State.checkLimit (s : State) : State :=
  if s.preloading && !s.preloadWaits && decide (Config.streamLimit ≤ s.preload.offset) then s.preloadFail .ps else s

/-- One byte of the stream is taken into the line being assembled (R147, R148). -/
def State.takeStreamByte (s : State) (b : Byte) : State :=
  let p := s.preload
  if p.atStart && (b == 0x00 || b == 0xFF) then s.preloadEnd .bypass
  else if b = 0x0A then s
  else if b = 0x0D then
    preloadDone (interpret .preload p.line.mark p.line.text { s with preload := p.lineStart })
  else if b = 0x1B then { s with preload := p.lineStart }
  else { s with preload := { p with line := p.line.take b, atStart := false } }

/-- The preload port reads one byte (R146, R147), while preload runs and no line executes (R148). -/
def State.readByte (s : State) (b : Byte) : State :=
  if s.preloading && !s.preloadWaits && decide (s.preload.offset < Config.streamLimit) then
    (({ s with preload := { s.preload with offset := s.preload.offset + 1 } }).takeStreamByte b).checkLimit
  else s

/-- The line that a verb's row spells is completed in the preload stream and executed (notes/assumptions/7.md). -/
def State.preloadCommand (s : State) (v : Verb) (ops : List Token) : State :=
  if s.preloading && !s.preloadWaits then preloadDone (runVerb v .preload ops s) else s

/-- A verb's row: the arrival of the line that spells it, from its source. -/
def State.command (s : State) (v : Verb) (src : Source) (ops : List Token) : State :=
  match src with
  | .console => s.consoleCommand v ops
  | .preload => s.preloadCommand v ops

/-- The preload port's part in a break (R152): an abort while preload runs. -/
def State.breakPreload (s : State) : State := if s.preloading then s.preloadFail .ab else s

/-! ## The end of a console memory access (section 9.5) -/

/-- How an access in slot M ends toward the interpreter, other than by `FR` (Table 9-2). -/
inductive AccessEnd where
  | ok (data : Data)
  | error
  | timeout
deriving DecidableEq, Repr

/-- The answer that the end of an access gives (R184 to R186). -/
def endAnswer (h : InHand) (e : AccessEnd) : Answer :=
  match e with
  | .ok d =>
    match h.command with
    | .mr => answerFields [hexWord h.addr, hexData h.size (maskData h.size d)]
    | .mw => answerFields [hexWord h.addr]
  | .error => .refused .fe
  | .timeout => .refused .ft

/-- The cursor after the end of an access: moved past the item on success (R184, R185), else unchanged (R186). -/
def Mem.advance (m : Mem) (h : InHand) (e : AccessEnd) : Mem :=
  match e with
  | .ok _ => { m with cursorAddr := h.addr + BitVec.ofNat 32 (sizeBytes h.size), cursorSize := h.size }
  | .error => m
  | .timeout => m

/-- The response of the command that the line IN SERVICE gave (R183). -/
def State.answerInService (s : State) (a : Answer) : State :=
  match s.console.inService with
  | some v => answerLine v.line (s, a)
  | none => s

/-- The line IN SERVICE executes `MR` or `MW`. -/
def State.lineExecutes (s : State) : Bool := s.console.inService.any (fun v => v.stage == .executing)

/-- The end of the access in hand, by its waiting party (R183): the line in service is answered; or the preload line's
execution is complete; or the result is discarded, and a line that a break had abandoned ends its service (R187). -/
def State.endAccess (s : State) (e : AccessEnd) : State :=
  match s.mem.inHand with
  | none => s
  | some h =>
    let s1 := { s with mem := { s.mem with inHand := none } }
    let s2 := { s1 with mem := s1.mem.advance h e }
    match h.party with
    | .console => s2.answerInService (endAnswer h e)
    | .preload => (preloadDone (s2, endAnswer h e)).checkLimit
    | .nobody => if s1.lineExecutes then s1.endService else s1

end Sys2Proof.Machine
end

