-- ==== Sys2Proof/Machine/Far.lean ====
section
/-! DEFINITION. The far link (sections 1.6 to 1.8 and 1.11): the issue arbiter, far responses, far timeouts, the end of the
FAR_RESET pulse; and the time base's tick (section 6.1). -/

namespace Sys2Proof.Machine

/-! ## Issue (R13, R14) -/

/-- Slot M contends for the far link: it is QUEUED (R13). -/
def State.slotMWaits (s : State) : Bool := s.transit.slotM.any (fun m => m.state == .queued)

/-- The contender that the issue arbiter chooses (R13). -/
def State.chosen (s : State) : Option Contender :=
  match s.far.forward, s.slotMWaits with
  | [], false => none
  | [], true => some .slotM
  | _ :: _, false => some .forwardQueue
  | _ :: _, true =>
    match s.far.lastWinner with
    | .forwardQueue => some .slotM
    | .slotM => some .forwardQueue

/-- The last-winner mark records the winner of a contest in which both waited (R13). -/
def State.markWinner (s : State) (c : Contender) : State :=
  if !s.far.forward.isEmpty && s.slotMWaits then { s with far := { s.far with lastWinner := c } } else s

/-- The far request of a traffic slot (R14, R190). A FETCH or LOAD has no write data; that the part then drives all eight
write-data lanes as 00h is the model's choice (DESIGN CHOICE, notes/assumptions/29.md). -/
def slotRequest (n : SlotNo) (a : Access) : FarRequest :=
  { tag := n.val, cls := a.cls, addr := a.addr, size := a.size, lanes := a.data.getD 0 }

/-- The far request of slot M (R14, R190), with the lanes of a LOAD at 00h as for a traffic slot (DESIGN CHOICE,
notes/assumptions/29.md). -/
def slotMRequest (m : MAccess) : FarRequest :=
  { tag := Config.slotMTag, cls := m.cls, addr := m.addr, size := m.size, lanes := m.data.getD 0 }

/-- The head of the forward queue is issued (R14). -/
def State.issueForward (s : State) : State :=
  match s.far.forward with
  | [] => s
  | n :: rest =>
    let s' := { s with far := { s.far with forward := rest, lastRequest := (s.slot n).map (slotRequest n) } }
    s'.modSlot n (fun a => { a with state := .issued, farTimer := loadTimer s.ctrl.params.farTimeout })

/-- Slot M is issued (R14). -/
def State.issueSlotM (s : State) : State :=
  match s.transit.slotM with
  | none => s
  | some m =>
    let s' := s.setSlotM (some { m with state := .issued, farTimer := loadTimer s.ctrl.params.farTimeout })
    { s' with far := { s'.far with lastRequest := some (slotMRequest m) } }

/-- FAR_RESET is asserted (R24, R25). -/
def State.farResetAsserted (s : State) : Bool := s.far.pulse.isSome

/-- The far link can take a request: the arbiter issues one contender, if one waits and FAR_RESET is negated (R13, R25). -/
def State.issue (s : State) : State :=
  if s.farResetAsserted then s
  else
    match s.chosen with
    | none => s
    | some .forwardQueue => (s.markWinner .forwardQueue).issueForward
    | some .slotM => (s.markWinner .slotM).issueSlotM

/-! ## Far responses (R15 to R17) -/

/-- The traffic slot a far tag names. -/
def farSlot (t : Fin 32) : Option SlotNo := if h : t.val < 16 then some ⟨t.val, h⟩ else none

/-- The read data of a far OK response to a FETCH or LOAD (R15, R190). -/
def farData (a : Access) (r : FarResponse) : Option Data :=
  match a.cls with
  | .store => none
  | .fetch => some (maskData a.size r.lanes)
  | .load => some (maskData a.size r.lanes)

/-- A far response completes an ISSUED traffic slot (R15, R108). -/
def State.completeSlot (s : State) (n : SlotNo) (a : Access) (r : FarResponse) : State :=
  let o := outcomeOfMark (s.recordMark n)
  if r.ok then (s.closeRecord n o (some .ok) (farData a r)).answerSlot n .ok (farData a r)
  else (s.closeRecord n o (some .fault) none).answerSlot n .fault none

/-- A far response for a traffic slot, by the slot's state (R15, R17). -/
def State.farToSlot (s : State) (n : SlotNo) (r : FarResponse) : State :=
  match s.slot n with
  | none => s.raise (.fs r.tag)
  | some a =>
    match a.state with
    | .issued => s.completeSlot n a r
    | .orphan => s.setSlot n none
    | .held => s.raise (.fs r.tag)
    | .queued => s.raise (.fs r.tag)
    | .answering => s.raise (.fs r.tag)

/-- A far response for slot M, by its state (R16, R17). -/
def State.farToSlotM (s : State) (r : FarResponse) : State :=
  match s.transit.slotM with
  | none => s.raise (.fs r.tag)
  | some m =>
    match m.state with
    | .issued => (s.setSlotM none).endAccess (if r.ok then .ok r.lanes else .error)
    | .orphan => s.setSlotM none
    | .queued => s.raise (.fs r.tag)

/-- A far response is taken and matched by its far tag (R15 to R17). -/
def State.takeFarResponse (s : State) (r : FarResponse) : State :=
  match farSlot r.tag with
  | some n => s.farToSlot n r
  | none => if r.tag.val = Config.slotMTag then s.farToSlotM r else s.raise (.fs r.tag)

/-- A far response that is offered while the part takes none: the memory side holds it unchanged until it is taken, behind
those offered before it (R25, R190, R193; notes/assumptions/11.md). -/
def State.keepOffer (s : State) (r : FarResponse) : State :=
  { s with far := { s.far with waiting := s.far.waiting ++ [r] } }

/-- A far response is offered: it is taken, except while FAR_RESET is asserted, when it waits (R15, R25). -/
def State.offerFarResponse (s : State) (r : FarResponse) : State :=
  if s.farResetAsserted then s.keepOffer r else s.takeFarResponse r

/-- The far response channel opens again: the responses still offered are taken, in the order of their offers (R25,
R190; notes/assumptions/11.md). -/
def State.takeWaiting (s : State) : State :=
  s.far.waiting.foldl State.offerFarResponse { s with far := { s.far with waiting := [] } }

/-- FAR_RESET is negated on the second tick after the last `FR`; the responses still offered are taken then (R25). -/
def State.endPulse (s : State) : State :=
  if s.far.pulse = some 0 then ({ s with far := { s.far with pulse := none } }).takeWaiting else s

/-! ## Far timeouts (R19, R20) -/

/-- The far timer of an ISSUED traffic slot is at zero: its expiry is due (R18, R123). -/
def State.farExpiryDue (s : State) (n : SlotNo) : Bool :=
  (s.slot n).any (fun a => a.state == .issued && a.farTimer == some 0)

/-- The far timeout of a traffic slot (R19). -/
def State.timeOut (s : State) (n : SlotNo) : State :=
  match s.slot n with
  | none => s
  | some a =>
    (((s.respondLoose a.tag .late).closeRecord n .farTimeout (some .late) none).modSlot n
      (fun a => { a with state := .orphan, tag := none, farTimer := none })).raise (.ft n)

/-- The far timer of an ISSUED slot M is at zero. -/
def State.farExpiryDueM (s : State) : Bool :=
  s.transit.slotM.any (fun m => m.state == .issued && m.farTimer == some 0)

/-- The far timeout of slot M (R20). -/
def State.timeOutM (s : State) : State :=
  (s.setSlotM (s.transit.slotM.map (fun m => { m with state := .orphan, farTimer := none }))).endAccess .timeout

/-! ## The tick (R120) -/

/-- A traffic slot at a tick: the far timer counts in every state, the hold timer when the part is not FROZEN (R18, R66,
R67). -/
def tickSlot (frozen : Bool) (a : Access) : Access :=
  { a with farTimer := tickTimer a.farTimer, holdTimer := if frozen then a.holdTimer else tickTimer a.holdTimer }

/-- The FAR_RESET pulse at a tick (R25): one tick fewer to its negation. -/
def tickPulse (p : Option (Fin 3)) : Option (Fin 3) := p.map (fun k => if k = 0 then 0 else k - 1)

/-- A tick ends and the next begins with the prescale code in force (R120, R121, R122). -/
def State.tickAll (s : State) : State :=
  { s with
    transit := { s.transit with
      slots := Vector.ofFn (fun n : Fin 16 => (s.slot n).map (tickSlot (s.ctrl.op == .frozen)))
      slotM := s.transit.slotM.map (fun m => { m with farTimer := tickTimer m.farTimer }) }
    far := { s.far with pulse := tickPulse s.far.pulse }
    time := { period := s.ctrl.params.prescale, stamp := s.time.stamp + 1 } }

/-- The length of a tick of this code, in microseconds (R120, Table 6-1). -/
def tickMicros (code : BitVec 3) : Nat := 2 ^ code.toNat

end Sys2Proof.Machine
end

