-- ==== Sys2Proof/Machine/Flags.lean ====
section
/-! DEFINITION. The lines and channels that the part drives, read from State (chapter 10): the discrete outputs, what each
link channel offers, the console transmit line and the preload pins. -/

namespace Sys2Proof.Machine

/-- ALERT is asserted exactly while the alert set is not empty (R125, R194). -/
def State.alertLine (s : State) : Bool := !s.ctrl.por && !s.alerts.isEmpty

/-- FAR_RESET is asserted from the taking of `FR` to the second following tick (R25, R194). -/
def State.farResetLine (s : State) : Bool := !s.ctrl.por && s.farResetAsserted

/-- The near response channel offers the head entry of the near response queue (R11, R190, R193). -/
def State.nearOffer (s : State) : Option NearResponse :=
  if s.ctrl.por then none else s.near.responses.head?.map responseItem

/-- What the far request channel offers while the far side shows, by `ready`, whether it can take a request: nothing
unless it can. The moment at which it can and a contender waits is the taking, the event ISSUE, so that no offer stands
outside that event and none is ever withdrawn (R13, R25, R190, R193). -/
def State.farOffer (s : State) (ready : Bool) : Option FarRequest :=
  if !ready || s.ctrl.por || s.farResetAsserted then none
  else
    match s.chosen with
    | none => none
    | some .forwardQueue => s.far.forward.head?.bind (fun n => (s.slot n).map (slotRequest n))
    | some .slotM => s.transit.slotM.map slotMRequest

/-- The near request channel would take this request (R1, R193). -/
def State.nearReady (s : State) (req : NearRequest) : Bool := !s.ctrl.por && s.mayAccept req

/-- The far response channel takes responses (R25, R193). -/
def State.farReady (s : State) : Bool := !s.ctrl.por && !s.farResetAsserted

/-- The frames that TXD carries for the line being sent, in order, all under the settings the line was begun under: none
when it rests at the high level (R153, R174, R176). -/
def State.txdFrames (s : State) : List (List Bool) :=
  match txText s.console.tx with
  | none => []
  | some t => (lineBytes t).map (frameBits s.console.txSettings.parity)

/-- The bit rate of those frames, in bits per second (R153, R174). -/
def State.txdRate (s : State) : Nat := baudRate s.console.txSettings.baud

/-- PRE_CS_N is asserted from the negation of POR_N with PRELOAD_EN until preload ends (R192, R193). -/
def State.preloadSelected (s : State) : Bool := !s.ctrl.por && s.preloading

/-- PRE_SCK runs while the port reads bytes, and stops while a line executes (R192). -/
def State.preloadClocked (s : State) : Bool := s.preloadSelected && !s.preloadWaits

/-- The lines of the pending response that have not been sent whole, the one being sent first (R170). -/
def State.replyLines (s : State) : Option (List Text) :=
  match s.console.tx with
  | .response l => some (l :: s.console.response.getD [])
  | .idle => s.console.response
  | .notice _ => s.console.response
  | .lost _ _ => s.console.response

end Sys2Proof.Machine
end

