-- ==== Sys2Proof/Machine/Events.lean ====
section
/-! DEFINITION. The meanings of the nineteen event rows of the opcode table: the link events, the time base, the resets and
pins, the console line and the preload port. -/

namespace Sys2Proof.Machine

/-- An event of the part. While POR_N is asserted the part takes nothing (R193); otherwise the event has its effect, and
at its end an idle transmitter chooses a line to send (R175). -/
def State.event (s : State) (effect : State → State) : Host.Outcome State Fault Refusal :=
  .next (if s.ctrl.por then s else (effect s).kick)

/-- ACCEPTANCE (R1 to R9). -/
def execAcceptance (req : NearRequest) (s : State) : Host.Outcome State Fault Refusal :=
  s.event (fun s => s.offerRequest req)

/-- DELIVERY (R11). -/
def execDelivery (s : State) : Host.Outcome State Fault Refusal := s.event State.deliver

/-- ISSUE (R13, R14). -/
def execIssue (s : State) : Host.Outcome State Fault Refusal := s.event State.issue

/-- FAR_RESPONSE (R15 to R17). While POR_N is asserted the part takes none, and the memory side goes on offering it
(R190, R193; notes/assumptions/11.md). -/
def execFarResponse (resp : FarResponse) (s : State) : Host.Outcome State Fault Refusal :=
  if s.ctrl.por then .next (s.keepOffer resp) else s.event (fun s => s.offerFarResponse resp)

/-- TICK (R120). -/
def execTick (s : State) : Host.Outcome State Fault Refusal := s.event State.tickAll

/-- FAR_TIMEOUT (R19): it is taken when the slot's far timer has expired, and does not happen otherwise (R18). -/
def execFarTimeout (slot : SlotNo) (s : State) : Host.Outcome State Fault Refusal :=
  s.event (fun s => if s.farExpiryDue slot then s.timeOut slot else s)

/-- SLOT_M_FAR_TIMEOUT (R20): it is taken when slot M's far timer has expired. -/
def execSlotMFarTimeout (s : State) : Host.Outcome State Fault Refusal :=
  s.event (fun s => if s.farExpiryDueM then s.timeOutM else s)

/-- EXPIRY (R69 to R73): it is taken when the slot's hold timer has expired. -/
def execExpiry (slot : SlotNo) (s : State) : Host.Outcome State Fault Refusal :=
  s.event (fun s => if s.expiryDue slot then s.expire slot else s)

/-- FAR_RESET_NEGATION (R25). -/
def execFarResetNegation (s : State) : Host.Outcome State Fault Refusal := s.event State.endPulse

/-- NEAR_RESET_ASSERTION (R22). -/
def execNearResetAssertion (s : State) : Host.Outcome State Fault Refusal := s.event State.assertNearReset

/-- NEAR_RESET_NEGATION (R23). -/
def execNearResetNegation (s : State) : Host.Outcome State Fault Refusal := s.event State.negateNearReset

/-- Power-on (R193): every piece of state takes its power-on value. The far responses still offered are the memory side's,
which holds them until they are taken (R190): that they stay is the model's choice (notes/assumptions/11.md). -/
def State.powerOn (s : State) : State :=
  { State.reset with far := { State.reset.far with waiting := s.far.waiting }, pending := s.pending }

/-- POR_N_ASSERTION (R193): every response owed to the requester is abandoned without a notice, and every piece of state
takes its power-on value. -/
def execPorAssertion (s : State) : Host.Outcome State Fault Refusal := .next s.powerOn

/-- The bits of a byte, most significant first (R192). -/
def bitsMsbFirst (b : Byte) : List Bool := (List.range 8).map (fun i => b.getMsbD i)

/-- The read instruction 03h and the 24-bit address 000000h, as shifted out on PRE_MOSI (R192). -/
def preloadReadBits : List Bool :=
  bitsMsbFirst 0x03 ++ bitsMsbFirst 0x00 ++ bitsMsbFirst 0x00 ++ bitsMsbFirst 0x00

/-- The part at the negation of POR_N (R133, R193, R130, R23, R119, R153, R192): straps and levels are sampled. -/
def State.powerUp (s : State) (pins : PowerOnPins) : State :=
  { s with
    ctrl := { s.ctrl with
      op := if pins.preloadEn then .gated else .bypass
      ret := none
      params := { s.ctrl.params with baud := pins.baud }
      por := false
      trigger := pins.trigger }
    near := { s.near with reset := pins.nearReset }
    time := { s.time with period := 0 }
    console := { s.console with baudInUse := pins.baud, parityInUse := .none }
    preload := { s.preload with mosi := if pins.preloadEn then preloadReadBits else [] } }

/-- POR_N_NEGATION (R133, R193); a level that is already negated gives no event. A far response still offered is taken then:
it finds every slot FREE, so it is spurious (R17, R190, R193; notes/assumptions/11.md). -/
def execPorNegation (pins : PowerOnPins) (s : State) : Host.Outcome State Fault Refusal :=
  .next (if s.ctrl.por then (s.powerUp pins).takeWaiting.kick else s)

/-- The state with the last TRIGGER level recorded (R130). -/
def State.setTrigger (s : State) (l : Bool) : State := { s with ctrl := { s.ctrl with trigger := l } }

/-- TRIGGER_RISING_EDGE (R35, R130, R131): an edge while the last level is asserted does not exist. -/
def execTriggerRisingEdge (s : State) : Host.Outcome State Fault Refusal :=
  s.event (fun s => if s.ctrl.trigger then s else (s.setTrigger true).triggerEntries)

/-- TRIGGER_FALLING_EDGE (R130, R131). -/
def execTriggerFallingEdge (s : State) : Host.Outcome State Fault Refusal := s.event (fun s => s.setTrigger false)

/-- CHARACTER (R154, R158 to R163). -/
def execCharacter (frame : RxFrame) (s : State) : Host.Outcome State Fault Refusal :=
  s.event (fun s => s.takeCharacter (s.received frame))

/-- BREAK (R156, R152). -/
def execBreak (s : State) : Host.Outcome State Fault Refusal := s.event (fun s => s.breakConsole.breakPreload)

/-- LINE_SENT (R175). -/
def execLineSent (s : State) : Host.Outcome State Fault Refusal := s.event State.finishLine

/-- BYTE_EVENT (R147). -/
def execByteEvent (byte : Byte) (s : State) : Host.Outcome State Fault Refusal := s.event (fun s => s.readByte byte)

end Sys2Proof.Machine
end

