-- ==== Sys2Proof/Machine/Verbs.lean ====
section
/-! DEFINITION. The meanings of the thirty-one verb rows of the opcode table. A verb's row is the arrival of the line that
spells it, from the console or from the preload stream; the verb's own rule is the `cmd` definition of its chapter. -/

namespace Sys2Proof.Machine

/-- `FR` (R24). -/
def execFr (src : Source) (ops : List Token) (s : State) : Host.Outcome State Fault Refusal :=
  s.event (fun s => s.command .fr src ops)

/-- `TS` (R26). -/
def execTs (src : Source) (ops : List Token) (s : State) : Host.Outcome State Fault Refusal :=
  s.event (fun s => s.command .ts src ops)

/-- `WS` (R46 to R48). -/
def execWs (src : Source) (ops : List Token) (s : State) : Host.Outcome State Fault Refusal :=
  s.event (fun s => s.command .ws src ops)

/-- `WR` (R49). -/
def execWr (src : Source) (ops : List Token) (s : State) : Host.Outcome State Fault Refusal :=
  s.event (fun s => s.command .wr src ops)

/-- `WA` (R50). -/
def execWa (src : Source) (ops : List Token) (s : State) : Host.Outcome State Fault Refusal :=
  s.event (fun s => s.command .wa src ops)

/-- `WD` (R51). -/
def execWd (src : Source) (ops : List Token) (s : State) : Host.Outcome State Fault Refusal :=
  s.event (fun s => s.command .wd src ops)

/-- `WX` (R52). -/
def execWx (src : Source) (ops : List Token) (s : State) : Host.Outcome State Fault Refusal :=
  s.event (fun s => s.command .wx src ops)

/-- `WQ` (R53). -/
def execWq (src : Source) (ops : List Token) (s : State) : Host.Outcome State Fault Refusal :=
  s.event (fun s => s.command .wq src ops)

/-- `HL` (R75). -/
def execHl (src : Source) (ops : List Token) (s : State) : Host.Outcome State Fault Refusal :=
  s.event (fun s => s.command .hl src ops)

/-- `HR` (R76, R77). -/
def execHr (src : Source) (ops : List Token) (s : State) : Host.Outcome State Fault Refusal :=
  s.event (fun s => s.command .hr src ops)

/-- `HA` (R78, R79). -/
def execHa (src : Source) (ops : List Token) (s : State) : Host.Outcome State Fault Refusal :=
  s.event (fun s => s.command .ha src ops)

/-- `HF` (R80). -/
def execHf (src : Source) (ops : List Token) (s : State) : Host.Outcome State Fault Refusal :=
  s.event (fun s => s.command .hf src ops)

/-- `RA` (R81). -/
def execRa (src : Source) (ops : List Token) (s : State) : Host.Outcome State Fault Refusal :=
  s.event (fun s => s.command .ra src ops)

/-- `SS` (R97). -/
def execSs (src : Source) (ops : List Token) (s : State) : Host.Outcome State Fault Refusal :=
  s.event (fun s => s.command .ss src ops)

/-- `SX` (R96). -/
def execSx (src : Source) (ops : List Token) (s : State) : Host.Outcome State Fault Refusal :=
  s.event (fun s => s.command .sx src ops)

/-- `SQ` (R98). -/
def execSq (src : Source) (ops : List Token) (s : State) : Host.Outcome State Fault Refusal :=
  s.event (fun s => s.command .sq src ops)

/-- `LR` (R113). -/
def execLr (src : Source) (ops : List Token) (s : State) : Host.Outcome State Fault Refusal :=
  s.event (fun s => s.command .lr src ops)

/-- `LN` (R114). -/
def execLn (src : Source) (ops : List Token) (s : State) : Host.Outcome State Fault Refusal :=
  s.event (fun s => s.command .ln src ops)

/-- `LC` (R115). -/
def execLc (src : Source) (ops : List Token) (s : State) : Host.Outcome State Fault Refusal :=
  s.event (fun s => s.command .lc src ops)

/-- `LM` (R116). -/
def execLm (src : Source) (ops : List Token) (s : State) : Host.Outcome State Fault Refusal :=
  s.event (fun s => s.command .lm src ops)

/-- `AK` (R127, R128). -/
def execAk (src : Source) (ops : List Token) (s : State) : Host.Outcome State Fault Refusal :=
  s.event (fun s => s.command .ak src ops)

/-- `GO` (R134). -/
def execGo (src : Source) (ops : List Token) (s : State) : Host.Outcome State Fault Refusal :=
  s.event (fun s => s.command .go src ops)

/-- `BY` (R135). -/
def execByp (src : Source) (ops : List Token) (s : State) : Host.Outcome State Fault Refusal :=
  s.event (fun s => s.command .byp src ops)

/-- `FZ` (R136). -/
def execFz (src : Source) (ops : List Token) (s : State) : Host.Outcome State Fault Refusal :=
  s.event (fun s => s.command .fz src ops)

/-- `TH` (R137). -/
def execTh (src : Source) (ops : List Token) (s : State) : Host.Outcome State Fault Refusal :=
  s.event (fun s => s.command .th src ops)

/-- `CL` (R139, R141). -/
def execCl (src : Source) (ops : List Token) (s : State) : Host.Outcome State Fault Refusal :=
  s.event (fun s => s.command .cl src ops)

/-- `ST` (R145). -/
def execSt (src : Source) (ops : List Token) (s : State) : Host.Outcome State Fault Refusal :=
  s.event (fun s => s.command .st src ops)

/-- `SP` (R142). -/
def execSp (src : Source) (ops : List Token) (s : State) : Host.Outcome State Fault Refusal :=
  s.event (fun s => s.command .sp src ops)

/-- `MA` (R179). -/
def execMa (src : Source) (ops : List Token) (s : State) : Host.Outcome State Fault Refusal :=
  s.event (fun s => s.command .ma src ops)

/-- `MR` (R180 to R182). -/
def execMr (src : Source) (ops : List Token) (s : State) : Host.Outcome State Fault Refusal :=
  s.event (fun s => s.command .mr src ops)

/-- `MW` (R180 to R182). -/
def execMw (src : Source) (ops : List Token) (s : State) : Host.Outcome State Fault Refusal :=
  s.event (fun s => s.command .mw src ops)

end Sys2Proof.Machine
end

