-- ==== Sys2Proof/Machine/Dispatch.lean ====
section
/-! DEFINITION. One arm for each command of the opcode table. -/

namespace Sys2Proof.Machine

def exec (i : Instr) (s : State) : Host.Outcome State Fault Refusal :=
  match i with
  | .acceptance req => Sys2Proof.Machine.execAcceptance req s
  | .delivery => Sys2Proof.Machine.execDelivery s
  | .issue => Sys2Proof.Machine.execIssue s
  | .farResponse resp => Sys2Proof.Machine.execFarResponse resp s
  | .tick => Sys2Proof.Machine.execTick s
  | .farTimeout slot => Sys2Proof.Machine.execFarTimeout slot s
  | .slotMFarTimeout => Sys2Proof.Machine.execSlotMFarTimeout s
  | .expiry slot => Sys2Proof.Machine.execExpiry slot s
  | .farResetNegation => Sys2Proof.Machine.execFarResetNegation s
  | .nearResetAssertion => Sys2Proof.Machine.execNearResetAssertion s
  | .nearResetNegation => Sys2Proof.Machine.execNearResetNegation s
  | .porAssertion => Sys2Proof.Machine.execPorAssertion s
  | .porNegation pins => Sys2Proof.Machine.execPorNegation pins s
  | .triggerRisingEdge => Sys2Proof.Machine.execTriggerRisingEdge s
  | .triggerFallingEdge => Sys2Proof.Machine.execTriggerFallingEdge s
  | .character frame => Sys2Proof.Machine.execCharacter frame s
  | .breakEvent => Sys2Proof.Machine.execBreak s
  | .lineSent => Sys2Proof.Machine.execLineSent s
  | .byteEvent byte => Sys2Proof.Machine.execByteEvent byte s
  | .fr src ops => Sys2Proof.Machine.execFr src ops s
  | .ts src ops => Sys2Proof.Machine.execTs src ops s
  | .ws src ops => Sys2Proof.Machine.execWs src ops s
  | .wr src ops => Sys2Proof.Machine.execWr src ops s
  | .wa src ops => Sys2Proof.Machine.execWa src ops s
  | .wd src ops => Sys2Proof.Machine.execWd src ops s
  | .wx src ops => Sys2Proof.Machine.execWx src ops s
  | .wq src ops => Sys2Proof.Machine.execWq src ops s
  | .hl src ops => Sys2Proof.Machine.execHl src ops s
  | .hr src ops => Sys2Proof.Machine.execHr src ops s
  | .ha src ops => Sys2Proof.Machine.execHa src ops s
  | .hf src ops => Sys2Proof.Machine.execHf src ops s
  | .ra src ops => Sys2Proof.Machine.execRa src ops s
  | .ss src ops => Sys2Proof.Machine.execSs src ops s
  | .sx src ops => Sys2Proof.Machine.execSx src ops s
  | .sq src ops => Sys2Proof.Machine.execSq src ops s
  | .lr src ops => Sys2Proof.Machine.execLr src ops s
  | .ln src ops => Sys2Proof.Machine.execLn src ops s
  | .lc src ops => Sys2Proof.Machine.execLc src ops s
  | .lm src ops => Sys2Proof.Machine.execLm src ops s
  | .ak src ops => Sys2Proof.Machine.execAk src ops s
  | .go src ops => Sys2Proof.Machine.execGo src ops s
  | .byp src ops => Sys2Proof.Machine.execByp src ops s
  | .fz src ops => Sys2Proof.Machine.execFz src ops s
  | .th src ops => Sys2Proof.Machine.execTh src ops s
  | .cl src ops => Sys2Proof.Machine.execCl src ops s
  | .st src ops => Sys2Proof.Machine.execSt src ops s
  | .sp src ops => Sys2Proof.Machine.execSp src ops s
  | .ma src ops => Sys2Proof.Machine.execMa src ops s
  | .mr src ops => Sys2Proof.Machine.execMr src ops s
  | .mw src ops => Sys2Proof.Machine.execMw src ops s

end Sys2Proof.Machine
end

