-- ==== Sys2Proof/Safety.lean ====
section
/-! DEFINITION. The terms in which statements speak of the part: when it runs, when its console is ready for a command, what
an answered command leaves at the console port, what an entry matches, and the laws that every step keeps. -/

namespace Sys2Proof.Machine

/-! ## Runs -/

/-- POR_N is negated: the part takes events (R193). -/
abbrev State.running (s : State) : Prop := s.ctrl.por = false

/-- Commands taken one after the other, stopping at the first that does not answer a next state. -/
def execAll : List Instr → State → Host.Outcome State Fault Refusal
  | [], s => .next s
  | c :: cs, s =>
    match exec c s with
    | .next t => execAll cs t
    | .fault r => .fault r
    | .refused r => .refused r

/-! ## The console port -/

/-- The console port once the notices of one event have been offered to its queue, in order (R171). -/
def offerAll (s : State) (ns : List Notice) : Console :=
  ns.foldl (fun c n => offerNotice s.ctrl.params.quiet n c) s.console

/-- The console port at the end of an event: an idle transmitter chooses a line if one waits (R175). -/
def settle (c : Console) : Console := if c.tx = .idle then chooseLine c else c

/-- The console port after an event that raises these notices and does nothing else there. -/
def consoleAfter (s : State) (ns : List Notice) : Console := settle (offerAll s ns)

/-- The console is ready for a command line that will be executed: the part runs outside GATED, no line is IN SERVICE, no
character was dropped, and no response line is being sent (R163, R167). -/
structure Ready (s : State) : Prop where
  runs    : s.running
  opened  : s.ctrl.op ≠ .gated
  free    : s.console.inService = none
  clean   : s.console.overrun = false
  noReply : sendingResponse s.console = false

/-- The console port once the line being sent has ended: the transmitter is between two lines, and settings that waited for
that are in use (R144, R174). -/
def lineEnded (s : State) : Console :=
  { s.console with
    tx := .idle
    begunUnder := none
    settingsDue := false
    baudInUse := if s.console.settingsDue then s.ctrl.params.baud else s.console.baudInUse
    parityInUse := if s.console.settingsDue then s.ctrl.params.parity else s.console.parityInUse }

/-- A verb's line from this source is executed when it arrives: the console is ready, or preload runs and executes no line
(R148, R163). -/
def Serves (s : State) : Source → Prop
  | .console => Ready s
  | .preload => s.running ∧ s.ctrl.op = .gated ∧ s.preloadWaits = false

/-- The line that a verb's row spells, as the console completes it. -/
def lineOf (v : Verb) (ops : List Token) : Line := { text := lineText v ops, mark := none, overrun := false }

/-- The console port of `t` when, from `s`, one event raised the notices `ns` and gave the line `l` the response `ls`: the
line is IN SERVICE with that response pending, ahead of every notice (R167, R170, R175), and the rest of the port is as it
was. -/
structure Answered (s t : State) (l : Line) (ns : List Notice) (ls : List Text) (settings : Bool := false) : Prop where
  reply       : t.replyLines = some ls
  service     : t.console.inService = some { line := l, stage := .responding, settings := settings }
  notices     : t.console.notices = (offerAll s ns).notices
  noticesLost : t.console.noticesLost = (offerAll s ns).noticesLost
  assembling  : t.console.assembling = s.console.assembling
  waiting     : t.console.waiting = s.console.waiting
  overrun     : t.console.overrun = s.console.overrun
  baudInUse   : t.console.baudInUse = s.console.baudInUse
  parityInUse : t.console.parityInUse = s.console.parityInUse
  settingsDue : t.console.settingsDue = s.console.settingsDue
  begunUnder  : t.console.begunUnder = s.console.begunUnder

/-- The preload port and the console port after an accepted line of a verb: a console line is answered with `ls`; a preload
line is counted, and its response is discarded (R148). -/
def Accepted (s t : State) (src : Source) (v : Verb) (ops : List Token) (ns : List Notice) (ls : List Text) : Prop :=
  match src with
  | .console => Answered s t (lineOf v ops) ns ls ∧ t.preload = s.preload
  | .preload =>
    t.console = consoleAfter s ns ∧ t.preload = { s.preload with lines := s.preload.lines + 1 }

/-- The part after preload has ended with an error of this code (R151), its stream line discarded. -/
def preloadErrorEnd (s : State) (c : Code) : State :=
  { s with
    watch   := Vector.replicate 16 WatchEntry.offValue
    subst   := Vector.ofFn (fun i : Fin 8 => { s.record i with valid := false })
    ctrl    := { s.ctrl with op := .bypass, ret := none }
    preload := { s.preload with line := { text := [], mark := none }, atStart := true }
    console := consoleAfter s [.plEr (s.preload.lines + 1) c] }

/-- The part after a refused line of a verb: a console line is answered with the code and nothing else changes; a preload
line ends preload with an error (R148, R151). -/
def Refused (s t : State) (src : Source) (v : Verb) (ops : List Token) (c : Code) : Prop :=
  match src with
  | .console => t = { s with console := t.console } ∧ Answered s t (lineOf v ops) [] [refusalText c]
  | .preload => t = preloadErrorEnd s c

/-- The operands of a line as a verb's reader takes them; `none` where the grammar or the reader refuses them. -/
def reads {α : Type} (ops : List Token) (f : Operands → Option α) : Option α := (readOperands ops).bind f

/-- The row of a verb. -/
def verbRow (v : Verb) (src : Source) (ops : List Token) : Instr :=
  match v with
  | .fr => .fr src ops | .ts => .ts src ops | .ws => .ws src ops | .wr => .wr src ops | .wa => .wa src ops
  | .wd => .wd src ops | .wx => .wx src ops | .wq => .wq src ops | .hl => .hl src ops | .hr => .hr src ops
  | .ha => .ha src ops | .hf => .hf src ops | .ra => .ra src ops | .ss => .ss src ops | .sx => .sx src ops
  | .sq => .sq src ops | .lr => .lr src ops | .ln => .ln src ops | .lc => .lc src ops | .lm => .lm src ops
  | .ak => .ak src ops | .go => .go src ops | .byp => .byp src ops | .fz => .fz src ops | .th => .th src ops
  | .cl => .cl src ops | .st => .st src ops | .sp => .sp src ops | .ma => .ma src ops | .mr => .mr src ops
  | .mw => .mw src ops

/-- The verb's operand checks that precede its examination of the state pass (Table 10-5). -/
def accepts (v : Verb) (s : State) (ops : List Token) : Bool :=
  match v with
  | .fr | .ts | .hl | .ra | .ln | .lc | .go | .byp | .fz | .th | .cl | .st => (reads ops readNone).isSome
  | .ws => (reads ops readWs).isSome
  | .wr => (reads ops readWr).isSome
  | .wa | .wd | .wx | .wq | .hf => (reads ops (readDigit 16)).isSome
  | .hr | .ak => (reads ops readOptDigit).isSome
  | .ha => (reads ops readHa).isSome
  | .ss => (reads ops readSs).isSome
  | .sx | .sq => (reads ops (readDigit 8)).isSome
  | .lr => (reads ops readLr).isSome
  | .lm => (reads ops readLm).isSome
  | .sp => (reads ops (readSp s.ctrl.params)).isSome
  | .ma | .mr => (reads ops (readMa s.mem)).isSome
  | .mw => (reads ops (readMw s.mem)).isSome

/-- `t` is what one event makes of `s`, with both line slots free of older lines, when in that event the line `w` enters
service (R161, R163, R167): the first test that applies answers it, and a verb takes effect as its row does, in the same
event, with `w` as the line IN SERVICE. An overrun flag that was set after `w` was completed stays for the next line. -/
structure Enters (s t : State) (w : Line) : Prop where
  line    : ∃ x, t.console.inService = some x ∧ x.line = w
  gated   : s.ctrl.op = .gated → t = { s with console := t.console } ∧ Answered s t w [] [['?', 'P', 'L']]
  overrun : s.ctrl.op ≠ .gated → w.overrun = true → t = { s with console := t.console } ∧ Answered s t w [] [['?', 'O', 'V']]
  marked  : ∀ m, s.ctrl.op ≠ .gated → w.overrun = false → w.mark = some m → t = { s with console := t.console } ∧
              Answered s t w [] [match m with
                | .ch => ['?', 'C', 'H']
                | .ll => ['?', 'L', 'L']
                | .fr => ['?', 'F', 'R']]
  empty   : s.ctrl.op ≠ .gated → w.overrun = false → w.mark = none → (∀ c ∈ w.text, c = ' ') →
              t = { s with console := t.console } ∧ Answered s t w [] [['=']]
  noVerb  : ∀ x ws, s.ctrl.op ≠ .gated → w.overrun = false → w.mark = none → tokens w.text = x :: ws →
              (∀ v : Verb, x.map upper ≠ verbText v) →
              t = { s with console := t.console } ∧ Answered s t w [] [['?', 'U', 'V']]
  verb    : ∀ x ws v, s.ctrl.op ≠ .gated → w.overrun = false → w.mark = none → tokens w.text = x :: ws →
              x.map upper = verbText v → ∃ u,
                exec (verbRow v .console ws) { s with console := { s.console with overrun := false } } = .next u ∧
                t = { u with console := { u.console with
                  inService := u.console.inService.map (fun y => { y with line := w })
                  overrun := s.console.overrun } }

/-! ## What the operands of a line say

The operands stand as the grammar reads them (R164, R166), with letters in upper case. -/

/-- A keyword operand: `omitted` where the line does not have it, `given` of its value where it does. -/
def Says (o : Operands) (k : Char) (omitted : Prop) (given : Text → Prop) : Prop :=
  match keyword o k with
  | none => omitted
  | some t => given t

/-- The line has exactly this digit as its positional operand. -/
def DigitIs (o : Operands) (n : Nat) : Prop := ∃ t, o.pos = [t] ∧ t.length = 1 ∧ hexNum t = some n

/-- The line's only operand is this digit. -/
def OneDigit (ops : List Token) (n : Nat) : Prop := ∃ o, readOperands ops = some o ∧ o.kws = [] ∧ DigitIs o n

/-- The line's operands are this digit and the keyword `R=` with this number (R49). -/
def WrSays (ops : List Token) (n : EntryNo) (v : Count) : Prop :=
  ∃ o w, readOperands ops = some o ∧ DigitIs o n.val ∧ o.kws = [('R', w)] ∧ hexNum w = some v.toNat

/-- The line's operands are this digit and at most the keyword `V=` with this value, as it is written (R74). -/
def HaSays (ops : List Token) (n : SlotNo) (v : Option Text) : Prop :=
  ∃ o, readOperands ops = some o ∧ DigitIs o n.val ∧ o.kws = (match v with | none => [] | some w => [('V', w)])

/-- The line's only operand is this number of one to eight digits (R112). -/
def LrSays (ops : List Token) (q : Word) : Prop :=
  ∃ o w, readOperands ops = some o ∧ o.kws = [] ∧ o.pos = [w] ∧ w.length ≤ 8 ∧ hexNum w = some q.toNat

/-- The line's operand is W for WRAP or S for STOP, or it has none (R112). -/
def LmSays (ops : List Token) (m : Option LogMode) : Prop :=
  match m with
  | none => ops = []
  | some .wrap => ∃ o, readOperands ops = some o ∧ o.kws = [] ∧ o.pos = [['W']]
  | some .stop => ∃ o, readOperands ops = some o ∧ o.kws = [] ∧ o.pos = [['S']]

/-- A letter of either case. -/
def Letter (c : Char) : Prop := ('A' ≤ c ∧ c ≤ 'Z') ∨ ('a' ≤ c ∧ c ≤ 'z')

/-- A character in which values and positional operands are written (R164). -/
def Written (c : Char) : Prop := Letter c ∨ ('0' ≤ c ∧ c ≤ '9')

/-- The operands break the general grammar: the cases of R166. -/
inductive BreaksGrammar (ops : List Token) : Prop where
  | character  : (∃ t ∈ ops, ∃ c ∈ t, ¬ Written c ∧ c ≠ '=') → BreaksGrammar ops
  | letter     : (∃ t ∈ ops, '=' ∈ t ∧ ¬ ∃ k v, t = k :: '=' :: v ∧ Letter k) → BreaksGrammar ops
  | emptyValue : (∃ t ∈ ops, ∃ k, t = [k, '=']) → BreaksGrammar ops
  | twoEquals  : (∃ t ∈ ops, 1 < t.count '=') → BreaksGrammar ops
  | longValue  : (∃ t ∈ ops, ∃ k v, t = k :: '=' :: v ∧ 16 < v.length) → BreaksGrammar ops
  | longPos    : (∃ t ∈ ops, '=' ∉ t ∧ 8 < t.length) → BreaksGrammar ops
  | twice      : (∃ (i j : Nat) (a b : Char) (v w : Text), i < j ∧ ops[i]? = some (a :: '=' :: v) ∧
                   ops[j]? = some (b :: '=' :: w) ∧ upper a = upper b) → BreaksGrammar ops
  | posAfter   : (∃ (i j : Nat) (t u : Token), i < j ∧ ops[i]? = some t ∧ ops[j]? = some u ∧ '=' ∈ t ∧ '=' ∉ u) →
                   BreaksGrammar ops

/-- The operands as they are written, with letters in upper case: the tokens without an `=`, and the letter and the value
of the tokens with one (R164). -/
def written (ops : List Token) : Operands where
  pos := (ops.filter (fun t => !t.contains '=')).map (fun t => t.map upper)
  kws := (ops.filter (fun t => t.contains '=')).map (fun t => (upper (t.headD ' '), (t.drop 2).map upper))

/-- Table 7-3 and R142: what the keywords of `SP` make of the parameters `p`; the others stay. -/
structure SpSays (o : Operands) (p q : Params) : Prop where
  none       : o.pos = []
  letters    : ∀ x ∈ o.kws, x.1 ∈ ['H', 'E', 'F', 'P', 'Q', 'D', 'Y']
  holdLimit  : Says o 'H' (q.holdLimit = p.holdLimit) (fun t => t.length ≤ 4 ∧ hexNum t = some q.holdLimit.toNat)
  policy     : Says o 'E' (q.policy = p.policy)
                 (fun t => (t = ['R'] ∧ q.policy = .release) ∨ (t = ['F'] ∧ q.policy = .fail))
  farTimeout : Says o 'F' (q.farTimeout = p.farTimeout) (fun t => t.length ≤ 4 ∧ hexNum t = some q.farTimeout.toNat)
  prescale   : Says o 'P' (q.prescale = p.prescale) (fun t => t.length = 1 ∧ hexNum t = some q.prescale.toNat)
  quiet      : Says o 'Q' (q.quiet = p.quiet) (fun t => t.length = 1 ∧ hexNum t = some (if q.quiet then 1 else 0))
  baud       : Says o 'D' (q.baud = p.baud) (fun t => t.length = 1 ∧ hexNum t = some q.baud.toNat)
  parity     : Says o 'Y' (q.parity = p.parity)
                 (fun t => (t = ['N'] ∧ q.parity = .none) ∨ (t = ['E'] ∧ q.parity = .even) ∨ (t = ['O'] ∧ q.parity = .odd))

/-- R179 and R180: the address and the size of `A=` and `Z=`, each the cursor's own where it is omitted. -/
structure PlaceSays (o : Operands) (m : Mem) (a : Word) (z : Size) : Prop where
  addr    : Says o 'A' (a = m.cursorAddr) (fun t => t.length ≤ 8 ∧ hexNum t = some a.toNat)
  size    : Says o 'Z' (z = m.cursorSize) (fun t => t.length = 1 ∧ hexNum t = some (sizeBytes z))
  aligned : a.toNat % sizeBytes z = 0

/-- R179 and R180: what the operands of `MA` and `MR` make of the cursor, or of the place of the access. -/
structure MaSays (o : Operands) (m : Mem) (a : Word) (z : Size) : Prop where
  none    : o.pos = []
  letters : ∀ x ∈ o.kws, x.1 ∈ ['A', 'Z']
  place   : PlaceSays o m a z

/-- R180: what the operands of `MW` make of the place and the value of the access. -/
structure MwSays (o : Operands) (m : Mem) (a : Word) (z : Size) (d : Data) : Prop where
  none    : o.pos = []
  letters : ∀ x ∈ o.kws, x.1 ∈ ['A', 'Z', 'V']
  place   : PlaceSays o m a z
  value   : Says o 'V' False (fun t => hexNum t = some d.toNat)
  fits    : d.toNat < 2 ^ (8 * sizeBytes z)

/-- Table 2-5 and R48: what the operands of `WS` make of entry n. -/
structure WsSays (o : Operands) (n : EntryNo) (e : WatchEntry) : Prop where
  entry     : DigitIs o n.val
  letters   : ∀ x ∈ o.kws, x.1 ∈ ['B', 'L', 'C', 'V', 'M', 'A', 'S', 'W', 'O', 'R', 'F']
  base      : Says o 'B' False (fun t => hexNum t = some e.base.toNat)
  limit     : Says o 'L' (e.limit = e.base) (fun t => hexNum t = some e.limit.toNat)
  classes   : Says o 'C' (e.classes = ⟨true, true, true⟩) (fun t => t ≠ [] ∧ t.Nodup ∧
                (∀ c ∈ t, c = 'F' ∨ c = 'L' ∨ c = 'S') ∧ (e.classes.fetch = true ↔ 'F' ∈ t) ∧
                (e.classes.load = true ↔ 'L' ∈ t) ∧ (e.classes.store = true ↔ 'S' ∈ t))
  noCond    : keyword o 'V' = none → keyword o 'M' = none → e.cond = none
  cond      : ¬ (keyword o 'V' = none ∧ keyword o 'M' = none) → ∃ c, e.cond = some c ∧
                Says o 'V' (c.value = 0) (fun t => hexNum t = some c.value.toNat) ∧
                Says o 'M' (c.mask = BitVec.allOnes 64) (fun t => hexNum t = some c.mask.toNat)
  action    : Says o 'A' False (fun t => (t = ['P'] ∧ e.action = some .pass) ∨ (t = ['N'] ∧ e.action = some .note) ∨
                (t = ['S'] ∧ e.action = some .subst) ∨ (t = ['H'] ∧ e.action = some .hold) ∨
                (t = ['F'] ∧ e.action = some .freeze))
  record    : Says o 'S' (e.record = none) (fun t => ∃ k : RecordNo, hexNum t = some k.val ∧ e.record = some k)
  alert     : Says o 'W' (e.alert = false) (fun t => hexNum t = some (if e.alert then 1 else 0))
  once      : Says o 'O' (e.once = false) (fun t => hexNum t = some (if e.once then 1 else 0))
  reload    : Says o 'R' (e.reload = 0) (fun t => hexNum t = some e.reload.toNat)
  armSource : Says o 'F' (e.armSource = none) (fun t => (t = ['T'] ∧ e.armSource = some .trigger) ∨
                (t.length = 1 ∧ ∃ m : EntryNo, hexNum t = some m.val ∧ e.armSource = some (.entry m)))
  state     : e.state = if e.armSource = none then .armed else .dormant
  counts    : e.fires = 0 ∧ e.remaining = e.reload ∧ e.pendingReload = none

/-- R47: the checks on what the operands of `WS` make of entry n that join several of them. -/
structure WsFits (n : EntryNo) (e : WatchEntry) : Prop where
  window    : e.base ≤ e.limit
  cond      : e.cond.isSome = true → e.classes = ⟨false, false, true⟩
  record    : e.record.isSome = true ↔ e.action = some .subst
  armSource : e.armSource ≠ some (.entry n)

/-- R97: what the operands of `SS` make of record n. -/
structure SsSays (o : Operands) (n : RecordNo) (r : SubstRecord) : Prop where
  record  : DigitIs o n.val
  letters : ∀ x ∈ o.kws, x.1 ∈ ['A', 'Z', 'V']
  addr    : Says o 'A' False (fun t => hexNum t = some r.addr.toNat)
  size    : Says o 'Z' False (fun t => hexNum t = some (sizeBytes r.size))
  value   : Says o 'V' False (fun t => hexNum t = some r.value.toNat)
  fits    : r.value.toNat < 2 ^ (8 * sizeBytes r.size)
  aligned : r.addr.toNat % sizeBytes r.size = 0
  valid   : r.valid = true
  uses    : r.uses = 0

/-! ## Printed fields (section 10.3)

The fields of the listings and reports in their print order, each with its width. -/

/-- An absent field is printed as `-` (R191). -/
def dashed (t : Option Text) : Text := t.getD ['-']

/-- A number or a letter of one digit. -/
def digitOf {k : Nat} (n : Fin k) : Text := [hexChar n.val]

/-- The words of R191, each as the manual writes it. -/
def PrintedWords : Prop :=
  [SlotState.held, .queued, .issued, .answering, .orphan].map slotStateWord =
    ["HELD".toList, "QUEUED".toList, "ISSUED".toList, "ANSWERING".toList, "ORPHAN".toList] ∧
  [MState.queued, .issued, .orphan].map mStateWord = ["QUEUED".toList, "ISSUED".toList, "ORPHAN".toList] ∧
  [AccClass.fetch, .load, .store].map classWord = ["FETCH".toList, "LOAD".toList, "STORE".toList] ∧
  [Disposition.forward, .substitute, .hold, .align].map dispWord =
    ["FORWARD".toList, "SUBSTITUTE".toList, "HOLD".toList, "ALIGN".toList] ∧
  [HoldReason.watch, .freeze, .order].map holdReasonWord = ["WATCH".toList, "FREEZE".toList, "ORDER".toList] ∧
  [PendAction.forward, .substitute].map pendActionWord = ["FORWARD".toList, "SUBSTITUTE".toList] ∧
  [Reason.ok, .fault, .late, .denied, .align, .abort].map reasonWord =
    ["OK".toList, "FAULT".toList, "LATE".toList, "DENIED".toList, "ALIGN".toList, "ABORT".toList] ∧
  [EntryState.off, .dormant, .armed, .spent].map entryStateWord =
    ["OFF".toList, "DORMANT".toList, "ARMED".toList, "SPENT".toList] ∧
  [Action.pass, .note, .subst, .hold, .freeze].map actionLetter = [['P'], ['N'], ['S'], ['H'], ['F']] ∧
  [PathMark.releasedByExpiry, .substMiss].map pathMarkWord = ["RELEASED-BY-EXPIRY".toList, "SUBST-MISS".toList] ∧
  [RecordOutcome.forwarded, .substituted, .substMiss, .answered, .failed, .expiredReleased, .expiredFailed, .farTimeout,
    .aborted, .cleared].map outcomeWord =
    ["FORWARDED".toList, "SUBSTITUTED".toList, "SUBST-MISS".toList, "ANSWERED".toList, "FAILED".toList,
      "EXPIRED-RELEASED".toList, "EXPIRED-FAILED".toList, "FAR-TIMEOUT".toList, "ABORTED".toList, "CLEARED".toList] ∧
  [OpState.gated, .bypass, .watch, .frozen].map opStateWord =
    ["GATED".toList, "BYPASS".toList, "WATCH".toList, "FROZEN".toList] ∧
  [ReturnState.bypass, .watch].map returnStateWord = ["BYPASS".toList, "WATCH".toList]

/-- The refusals of Table 8-3, and the two codes that only `^PL ER` carries (R151, R152). -/
def RefusalTexts : Prop :=
  [Code.bo, .uv, .bz, .nf, .nh, .em, .ob, .op].map refusalText =
    ["?BO".toList, "?UV".toList, "?BZ".toList, "?NF".toList, "?NH".toList, "?EM".toList, "?OB".toList, "?OP".toList] ∧
  [Code.ll, .ch, .fr, .ov, .pl, .ft, .fe].map refusalText =
    ["?LL".toList, "?CH".toList, "?FR".toList, "?OV".toList, "?PL".toList, "?FT".toList, "?FE".toList] ∧
  codeText .ps = "PS".toList ∧ codeText .ab = "AB".toList ∧ ∀ c, refusalText c = '?' :: codeText c

/-- The lines of the notices (Table 10-9, R173). -/
def NoticeTexts : Prop :=
  (∀ n t e a, noticeText (.hd n t e a) = "^HD ".toList ++ digitOf n ++ [' '] ++ digitOf t ++ [' ']
    ++ dashed (e.map digitOf) ++ [' '] ++ hexFixed 8 a.toNat) ∧
  (∀ n, noticeText (.ex n) = "^EX ".toList ++ digitOf n) ∧
  (∀ n, noticeText (.ft n) = "^FT ".toList ++ digitOf n) ∧
  (∀ f, noticeText (.fs f) = "^FS ".toList ++ hexPlain f.val) ∧
  (∀ e, noticeText (.al e) = "^AL ".toList ++ digitOf e) ∧
  (∀ n, noticeText (.plOk n) = "^PL OK ".toList ++ hexPlain n) ∧
  (∀ n c, noticeText (.plEr n c) = "^PL ER ".toList ++ hexPlain n ++ [' '] ++ codeText c) ∧
  noticeText .nr = "^NR".toList ∧ noticeText .fz = "^FZ".toList ∧ noticeText .th = "^TH".toList ∧
  noticeText .lf = "^LF".toList ∧ noticeText .bk = "^BK".toList ∧
  ∀ n, lostText n = "^NL ".toList ++ hexFixed 2 n.toNat

/-- The number of ones among the data bits of a byte. -/
def onesOf (b : Byte) : Nat := (List.range 8).countP b.getLsbD

/-- The levels on the line of one byte under a parity (R153): a start bit at the low level, the data bits from the least
significant, the parity bit that makes the number of ones even or odd, and a stop bit at the high level. -/
def frameOf (p : Parity) (b : Byte) : List Bool :=
  [false] ++ [b.getLsbD 0, b.getLsbD 1, b.getLsbD 2, b.getLsbD 3, b.getLsbD 4, b.getLsbD 5, b.getLsbD 6, b.getLsbD 7]
    ++ (match p with
      | .none => []
      | .even => [decide (onesOf b % 2 = 1)]
      | .odd => [decide (onesOf b % 2 = 0)])
    ++ [true]

/-- The frames of a line on TXD: its characters in order, then CR and LF (R168, R174). -/
def framesOf (p : Parity) (t : Text) : List (List Bool) :=
  (t.map (fun c => frameOf p (BitVec.ofNat 8 c.toNat))) ++ [frameOf p 0x0D, frameOf p 0x0A]

/-- A `TS` line of a traffic slot (Tables 1-7 and 10-7). -/
def tsFields (n : SlotNo) (a : Access) : List Text :=
  [digitOf n, slotStateWord a.state, dashed (a.tag.map digitOf), classWord a.cls, hexFixed 8 a.addr.toNat,
   [hexChar (sizeBytes a.size)], hexFixed 8 a.arrival.toNat, dispWord a.disp, dashed (a.owner.map digitOf),
   dashed (a.logSeq.map (fun q => hexFixed 8 q.toNat)), dashed (a.holdReason.map holdReasonWord),
   dashed ((if a.state = .held then a.holdTimer else if a.state = .issued then a.farTimer else none).map
     (fun c => hexFixed 4 c.toNat))]

/-- A `TS` line of slot M (Tables 1-7 and 10-7). -/
def tsFieldsM (m : MAccess) : List Text :=
  [['M'], mStateWord m.state, ['-'], classWord m.cls, hexFixed 8 m.addr.toNat, [hexChar (sizeBytes m.size)], ['-'], ['-'],
   ['-'], ['-'], ['-'], dashed ((if m.state = .issued then m.farTimer else none).map (fun c => hexFixed 4 c.toNat))]

/-- An `HL` line (R75, Table 10-7). -/
def hlFields (n : SlotNo) (a : Access) : List Text :=
  [digitOf n, dashed (a.tag.map digitOf), hexFixed 8 a.arrival.toNat, classWord a.cls, hexFixed 8 a.addr.toNat,
   [hexChar (sizeBytes a.size)], dashed (a.holdReason.map holdReasonWord), dashed (a.pendAction.map pendActionWord),
   dashed (a.owner.map digitOf), dashed (a.holdTimer.map (fun c => hexFixed 4 c.toNat))]

/-- A list of letters or digits, `-` when it is empty (R191). -/
def dashedList (t : Text) : Text := if t = [] then ['-'] else t

/-- A `WQ` report (R53, Table 10-8). -/
def wqFields (n : EntryNo) (e : WatchEntry) : List Text :=
  [digitOf n, entryStateWord e.state, hexFixed 8 e.base.toNat, hexFixed 8 e.limit.toNat,
   dashedList ((if e.classes.fetch then ['F'] else []) ++ (if e.classes.load then ['L'] else [])
     ++ (if e.classes.store then ['S'] else [])),
   dashed (e.cond.map (fun c => hexFixed 16 c.value.toNat)), dashed (e.cond.map (fun c => hexFixed 16 c.mask.toNat)),
   dashed (e.action.map actionLetter), dashed (e.record.map digitOf), [if e.alert then '1' else '0'],
   [if e.once then '1' else '0'],
   dashed (e.armSource.map (fun x => match x with | .entry m => digitOf m | .trigger => ['T'])),
   hexFixed 4 e.remaining.toNat, hexFixed 4 e.reload.toNat, dashed (e.pendingReload.map (fun c => hexFixed 4 c.toNat)),
   hexFixed 4 e.fires.toNat]

/-- An `LR` or `LN` report (R113, Table 10-8). -/
def lrFields (c : CaptureRecord) : List Text :=
  [hexFixed 8 c.seq.toNat, hexFixed 8 c.stamp.toNat, digitOf c.slot, digitOf c.tag, classWord c.cls,
   hexFixed 8 c.addr.toNat, [hexChar (sizeBytes c.size)],
   dashed (c.data.map (fun d => hexFixed (2 * sizeBytes c.size) d.toNat)), dashedList (c.fired.map (fun e => hexChar e.val)),
   digitOf c.owner, dispWord c.disp] ++
  (match c.status with
    | .opened mark => ["OPEN".toList, dashed (mark.map pathMarkWord), ['-'], ['-'], ['-']]
    | .closed o r d => ["CLOSED".toList, ['-'], outcomeWord o, dashed (r.map reasonWord),
        dashed (d.map (fun d => hexFixed (2 * sizeBytes c.size) d.toNat))])

/-- The seven parameters of an `SP` or `ST` report (R142, Table 10-8). -/
def spFields (p : Params) : List Text :=
  [hexFixed 4 p.holdLimit.toNat, [match p.policy with | .release => 'R' | .fail => 'F'], hexFixed 4 p.farTimeout.toNat,
   [hexChar p.prescale.toNat], [if p.quiet then '1' else '0'], [hexChar p.baud.toNat],
   [match p.parity with | .none => 'N' | .even => 'E' | .odd => 'O']]

/-- An `ST` report (R145, Table 10-8). -/
def stFields (s : State) : List Text :=
  [opStateWord s.ctrl.op, dashed (s.ctrl.ret.map returnStateWord),
   hexPlain (allSixteen.filter (fun n => (s.slot n).isSome)).length,
   (match s.transit.slotM with | none => "FREE".toList | some m => mStateWord m.state),
   hexPlain s.near.responses.length, hexPlain s.hold.length, hexPlain s.far.forward.length, hexPlain s.log.records.length,
   hexFixed 4 s.log.lost.toNat, hexFixed 8 (s.log.counter + 1).toNat,
   [match s.log.mode with | .wrap => 'W' | .stop => 'S'], dashedList (s.alerts.map (fun e => hexChar e.val)),
   hexFixed 2 s.console.noticesLost.toNat] ++ spFields s.ctrl.params

/-! ## Lines as characters and bytes -/

/-- A good frame of one character under a parity (R153, R154). -/
def goodFrame (p : Parity) (c : Char) : RxFrame :=
  { data := BitVec.ofNat 8 c.toNat, parityBit := (parityLevel p (BitVec.ofNat 8 c.toNat)).getD false,
    stopHigh := true, begunWith := none }

/-- The characters of a line and its CR, one CHARACTER each. -/
def typed (p : Parity) (t : Text) : List Instr := (t ++ [Char.ofNat 13]).map (fun c => .character (goodFrame p c))

/-- The bytes of a line and its CR, one BYTE_EVENT each. -/
def streamed (t : Text) : List Instr := (t ++ [Char.ofNat 13]).map (fun c => .byteEvent (BitVec.ofNat 8 c.toNat))

/-- The outcome that follows a next state, and any other outcome as it is. -/
def andThen (o : Host.Outcome State Fault Refusal) (f : State → State) : Host.Outcome State Fault Refusal :=
  match o with
  | .next t => .next (f t)
  | .fault r => .fault r
  | .refused r => .refused r

/-! ## Acceptance and judgement -/

/-- R2: a near tag is carried live by a HELD, QUEUED or ISSUED slot or by an entry of the near response queue. -/
def TagLive (s : State) (t : NearTag) : Prop :=
  (∃ n a, s.slot n = some a ∧ (a.state = .held ∨ a.state = .queued ∨ a.state = .issued) ∧ a.tag = some t) ∨
  ∃ e ∈ s.near.responses, e.tag = t

/-- The near link takes this request into traffic slot n: R1's four conditions and R3's choice. -/
structure Takes (s : State) (req : NearRequest) (n : SlotNo) : Prop where
  runs    : s.running
  opened  : s.ctrl.op ≠ .gated
  noReset : s.near.reset = false
  slot    : s.slot n = none
  lowest  : ∀ m : SlotNo, m < n → s.slot m ≠ none
  tag     : ¬ TagLive s req.tag

/-- The access of a request with these decisions (Table 1-2), without a log sequence number and hold fields. -/
def accessOf (s : State) (req : NearRequest) (st : SlotState) (d : Disposition) (owner : Option EntryNo) : Access where
  state      := st
  tag        := some req.tag
  cls        := req.cls
  addr       := req.addr
  size       := req.size
  data       := requestData req
  arrival    := s.transit.arrivals
  disp       := d
  owner      := owner
  logSeq     := none
  holdReason := none
  holdTimer  := none
  pendAction := none
  farTimer   := none

/-- The transit table with an accepted access in slot n and the arrival counter advanced (R3). -/
def accepted (s : State) (n : SlotNo) (a : Access) : Transit :=
  { s.transit with slots := s.transit.slots.set n (some a), arrivals := s.transit.arrivals + 1 }

/-- A timer loaded from a parameter, which loads none when it is 0 (R14, R65). -/
def loaded (limit : Count) : Option Count := if limit = 0 then none else some limit

/-- R30 and R31: the entry matches the request. -/
structure Matches (e : WatchEntry) (req : NearRequest) : Prop where
  armed  : e.state = .armed
  cls    : e.classes.has req.cls = true
  below  : req.addr.toNat ≤ e.limit.toNat
  above  : e.base.toNat ≤ req.addr.toNat + sizeBytes req.size - 1
  cond   : ∀ c, e.cond = some c → req.cls = .store ∧ maskData req.size req.lanes &&& c.mask = c.value &&& c.mask

/-- R32: the entry matches the request with its remaining count exhausted. -/
def Fires (e : WatchEntry) (req : NearRequest) : Prop := Matches e req ∧ e.remaining = 0

/-- The strength of an action, strongest greatest (R38). -/
def strength : Action → Nat
  | .pass => 0
  | .note => 1
  | .subst => 2
  | .hold => 3
  | .freeze => 4

/-- R38: entry o fires with action a, and no fired entry is stronger, nor as strong with a lower number. -/
structure Owns (s : State) (req : NearRequest) (o : EntryNo) (a : Action) : Prop where
  fires  : Fires (s.entry o) req
  action : (s.entry o).action = some a
  wins   : ∀ m b, Fires (s.entry m) req → (s.entry m).action = some b →
             strength b < strength a ∨ (strength b = strength a ∧ o ≤ m)

/-- The held access of slot m overlaps an access being placed, and one of the two is a STORE (R59, R60). -/
def Blocks (s : State) (m : SlotNo) (a : Access) : Prop :=
  ∃ b, s.slot m = some b ∧ b.state = .held ∧
    (a.addr.toNat < b.addr.toNat + sizeBytes b.size ∧ b.addr.toNat < a.addr.toNat + sizeBytes a.size) ∧
    (a.cls = .store ∨ b.cls = .store)

/-- The order guard finds no blocker for an access at its placement (R60). -/
def Unblocked (s : State) (a : Access) : Prop := ∀ m ∈ s.hold, ¬ Blocks s m a

/-- The entries that fire on a request, as a list in ascending order (R39). -/
def FiredList (s : State) (req : NearRequest) (l : List EntryNo) : Prop :=
  l.Pairwise (fun a b => a < b) ∧ ∀ k, k ∈ l ↔ Fires (s.entry k) req

/-- The disposition that a winning action gives (Table 2-3). -/
def dispFor : Action → Disposition
  | .pass => .forward
  | .note => .forward
  | .subst => .substitute
  | .hold => .hold
  | .freeze => .hold

/-- The log can make a record (R101 to R104). -/
def RoomFor (l : Log) : Prop :=
  l.counter ≠ 0xFFFFFFFF ∧
  (l.records.length < 64 ∨ (l.mode = .wrap ∧ ∃ r rs, l.records = r :: rs ∧ r.isOpen = false))

/-- The log with one more record, in place of its oldest when it is full (R101, R103). -/
def withRecord (l : Log) (r : CaptureRecord) : Log :=
  { l with
    records := (if l.records.length < 64 then l.records else l.records.tail) ++ [r]
    counter := l.counter + 1 }

/-- The log with one more lost record (R105). -/
def oneLost (l : Log) : Log := { l with lost := if l.lost = 0xFFFF then 0xFFFF else l.lost + 1 }

/-- The record that the judgement of a request makes (R39, R101). -/
def recordOf (s : State) (req : NearRequest) (n : SlotNo) (fired : List EntryNo) (o : EntryNo) (d : Disposition)
    (st : RecordStatus) : CaptureRecord where
  seq    := s.log.counter + 1
  stamp  := s.time.stamp
  slot   := n
  tag    := req.tag
  cls    := req.cls
  addr   := req.addr
  size   := req.size
  data   := requestData req
  fired  := fired
  owner  := o
  disp   := d
  status := st

/-- The capture log after the record that a slot names, if it names one, is closed (R107). -/
def logClosed (l : Log) (seq : Option Word) (o : RecordOutcome) (r : Reason) (d : Option Data) : Log :=
  match seq with
  | none => l
  | some q => { l with records := l.records.map (fun c => if c.seq = q then c.close o (some r) d else c) }

/-- The capture log after the record that a slot names, if it names one, takes a path mark (R106). -/
def logMarked (l : Log) (seq : Option Word) (m : PathMark) : Log :=
  match seq with
  | none => l
  | some q => { l with records := l.records.map (fun c => if c.seq = q then c.mark m else c) }

/-- An access without its hold fields, in another state (R58). -/
def left (a : Access) (st : SlotState) : Access :=
  { a with state := st, holdReason := none, holdTimer := none, pendAction := none }

/-- A held access that has been answered: ANSWERING, its record closed (R58, R107). -/
def answered (a : Access) : Access := { left a .answering with logSeq := none, farTimer := none }

/-- A read or store class seen from memory: a STORE brings back no data (R10). -/
def readData (c : AccClass) (d : Data) : Option Data := if c = .store then none else some d

/-- A byte of a data value, lane k. -/
def byteOf (d : Data) (k : Nat) : Byte := BitVec.ofNat 8 (d.toNat / 2 ^ (8 * k))

/-! ## Slots that leave the hold queue -/

/-- A substitution of this access hits record k, as its owner entry and the record stand (R44, R88, R89). -/
def Hits (s : State) (a : Access) (k : RecordNo) : Prop :=
  ∃ o, a.owner = some o ∧ (s.entry o).action = some .subst ∧ (s.entry o).record = some k ∧ (s.record k).valid = true ∧
    (s.record k).addr.toNat ≤ a.addr.toNat ∧
    a.addr.toNat + sizeBytes a.size ≤ (s.record k).addr.toNat + sizeBytes (s.record k).size

/-- Slot n, whose access is `a`, has left the hold queue of `s` by its pending action SUBSTITUTE when `t` is reached (R64). -/
structure SubstLeaves (s t : State) (n : SlotNo) (a : Access) : Prop where
  held    : n ∈ s.hold
  gone    : n ∉ t.hold
  access  : s.slot n = some a
  pending : a.pendAction = some .substitute

/-- A record after one hit: a STORE has written its bytes, and the use is counted (R91 to R93). -/
def afterHit (r : SubstRecord) (a : Access) : SubstRecord :=
  { (if a.cls = .store then r.write a.addr a.size (a.data.getD 0) else r) with
    uses := if r.uses = 0xFFFF then 0xFFFF else r.uses + 1 }

/-- `r` is record k of `s` after the hits of those of the slots `ns` that left, in this order; with none of them it is as it
was (R91 to R94). -/
def HitsMade (s t : State) (ns : List SlotNo) (k : RecordNo) (r : SubstRecord) : Prop :=
  ∃ hs : List SlotNo, hs.Sublist ns ∧ (∀ n, n ∈ hs ↔ n ∈ ns ∧ ∃ a, SubstLeaves s t n a ∧ Hits s a k) ∧
    r = (hs.filterMap s.slot).foldl afterHit (s.record k)

/-- What stands in `t` for slot n, whose access is `a`, after it has left the hold queue of `s` without an answer of the
console (R61, R63, R64): it is QUEUED, but for an ORDER slot with pending action SUBSTITUTE that hits its record, which is
answered OK, for a read with the record's bytes as the hits of the slots ahead of it have left them. -/
structure Departs (s t : State) (n : SlotNo) (a : Access) : Prop where
  forward : a.pendAction ≠ some .substitute → t.slot n = some (left a .queued)
  miss    : a.pendAction = some .substitute → (∀ k, ¬ Hits s a k) → t.slot n = some (left a .queued)
  hit     : ∀ k, a.pendAction = some .substitute → Hits s a k → t.slot n = some (answered a) ∧
              ∃ e ∈ t.near.responses, e.slot = some n ∧ a.tag = some e.tag ∧ e.reason = .ok ∧
                (e.data = none ↔ a.cls = .store) ∧
                ∃ r, HitsMade s t (s.ahead n) k r ∧ e.data = readData a.cls (r.read a.addr a.size)

/-- The entries that stand behind those of `s` in the near response queue of `t` belong to these slots, in order. -/
def RespondsFor (s t : State) (ns : List SlotNo) : Prop :=
  ∃ es, t.near.responses = s.near.responses ++ es ∧ es.map RespEntry.slot = ns.map some ∧ ∀ e ∈ es, e.reason = .ok

/-- The walk of `RA` and of soft clear through the hold queue of `s`, and the clearance that follows it, have left `t`
(R81, R85): the walk released the slots `rel` in queue order, those without a blocker among the slots it left held; the
clearance let the others go in queue order, to the forward queue behind them or to the near response queue. -/
structure Walked (s t : State) (rel : List SlotNo) : Prop where
  released  : rel.Sublist s.hold
  exact     : ∀ n a, n ∈ s.hold → s.slot n = some a →
                (n ∈ rel ↔ a.holdReason ≠ some .order ∧ ∀ m ∈ s.ahead n, m ∉ rel → ¬ Blocks s m a)
  forward   : t.far.forward = s.far.forward ++ rel ++ s.hold.filter (fun n => !rel.contains n && t.slotIs n .queued)
  responses : RespondsFor s t (s.hold.filter (fun n => t.slotIs n .answering))

/-- The capture records after the substitutions of the slots that left: the record that a hit's slot names is closed
SUBSTITUTED with the data of its response, the one that a miss's slot names takes the mark SUBST-MISS, and every other is as
it was (R91, R92, R94, R106, R107). -/
structure LogFollows (s t : State) : Prop where
  length : t.log.records.length = s.log.records.length
  hit    : ∀ (i : Nat) c n a k, s.log.records[i]? = some c → SubstLeaves s t n a → a.logSeq = some c.seq → Hits s a k →
             ∃ e ∈ t.near.responses, e.slot = some n ∧
               t.log.records[i]? = some (c.close .substituted (some .ok) e.data)
  miss   : ∀ (i : Nat) c n a, s.log.records[i]? = some c → SubstLeaves s t n a → a.logSeq = some c.seq →
             (∀ k, ¬ Hits s a k) → t.log.records[i]? = some (c.mark .substMiss)
  other  : ∀ (i : Nat) c, s.log.records[i]? = some c → (∀ n a, SubstLeaves s t n a → a.logSeq ≠ some c.seq) →
             t.log.records[i]? = some c

/-! ## Laws that every step keeps -/

/-- Table 1-2: which fields a traffic slot has in which state. -/
structure SlotOk (a : Access) : Prop where
  tag      : a.tag.isSome = true ↔ a.state ≠ .orphan
  reason   : a.holdReason.isSome = true ↔ a.state = .held
  pending  : a.pendAction.isSome = true ↔ a.holdReason = some .order
  timer    : a.holdTimer.isSome = true → a.holdReason = some .watch ∨ a.holdReason = some .freeze
  farTimer : a.farTimer.isSome = true → a.state = .issued
  data     : a.data.isSome = true ↔ a.cls = .store ∧ a.disp ≠ .align

/-- R4: every traffic slot that is not FREE has the fields of its state. -/
def SlotsOk (s : State) : Prop := ∀ n a, s.slot n = some a → SlotOk a

/-- R2, R10, R12 and R54: the hold queue holds exactly the HELD slots, the forward queue exactly the QUEUED slots, the
near response queue exactly one entry for each ANSWERING slot, each once; and no near tag is carried live twice. -/
structure TransitOk (s : State) : Prop where
  holdNodup    : s.hold.Nodup
  holdExact    : ∀ n, n ∈ s.hold ↔ s.slotIs n .held = true
  forwardNodup : s.far.forward.Nodup
  forwardExact : ∀ n, n ∈ s.far.forward ↔ s.slotIs n .queued = true
  answerNodup  : (s.near.responses.filterMap RespEntry.slot).Nodup
  answerExact  : ∀ n, n ∈ s.near.responses.filterMap RespEntry.slot ↔ s.slotIs n .answering = true
  slotTags     : ∀ m n a b t, s.slot m = some a → s.slot n = some b → carriesTag a.state = true →
                   carriesTag b.state = true → a.tag = some t → b.tag = some t → m = n
  entryTags    : (s.near.responses.map RespEntry.tag).Nodup
  tagsApart    : ∀ n a e, s.slot n = some a → carriesTag a.state = true → e ∈ s.near.responses → a.tag ≠ some e.tag

/-- R99 and R101: at most 64 records in strictly increasing sequence numbers, none above the counter; every slot's log
sequence number names an OPEN record, and every OPEN record is named by exactly one slot, HELD, QUEUED or ISSUED. -/
structure LogOk (s : State) : Prop where
  room    : s.log.records.length ≤ Config.logRoom
  ordered : s.log.records.Pairwise (fun a b => a.seq < b.seq)
  counted : ∀ r ∈ s.log.records, r.seq ≤ s.log.counter
  named   : ∀ n a q, s.slot n = some a → a.logSeq = some q →
              carriesTag a.state = true ∧ ∃ r ∈ s.log.records, r.seq = q ∧ r.isOpen = true
  open1   : ∀ r ∈ s.log.records, r.isOpen = true → ∃ n, s.slotSeq n = some r.seq
  once    : ∀ m n q, s.slotSeq m = some q → s.slotSeq n = some q → m = n

/-- R62: every ORDER slot of the hold queue has a blocker ahead of it. -/
def OrderOk (s : State) : Prop := ∀ n, n ∈ s.hold → s.heldAs n .order = true → s.blocked n = true

/-- R27: what the fields of a watch entry may be. -/
structure EntryOk (n : EntryNo) (e : WatchEntry) : Prop where
  offValues : e.state = .off → e = WatchEntry.offValue
  action    : e.state ≠ .off → e.action.isSome = true
  record    : e.record.isSome = true ↔ e.action = some .subst
  window    : e.base ≤ e.limit
  classes   : e.state ≠ .off → (e.classes.fetch || e.classes.load || e.classes.store) = true
  cond      : e.cond.isSome = true → e.classes = ⟨false, false, true⟩
  notSelf   : e.armSource ≠ some (.entry n)

/-- R27 for the whole watch table, R86 for the substitution table. -/
structure TablesOk (s : State) : Prop where
  entries : ∀ n, EntryOk n (s.entry n)
  records : ∀ n, aligned (s.record n).addr (s.record n).size = true ∧
              (s.record n).value.toNat < 2 ^ (8 * sizeBytes (s.record n).size)

/-- R133, R177, R178, R125, R193: the return state is present exactly in FROZEN; the cursor is aligned; the access in hand is
present exactly while slot M is QUEUED or ISSUED; the alert set holds each number at most once, ascending; and while POR_N
is asserted the part has its power-on values, whatever far responses the memory side offers. -/
structure ControlOk (s : State) : Prop where
  ret    : s.ctrl.ret.isSome = true ↔ s.ctrl.op = .frozen
  cursor : aligned s.mem.cursorAddr s.mem.cursorSize = true
  inHand : s.mem.inHand.isSome = true ↔ s.transit.slotM.any (fun m => m.state != .orphan) = true
  place  : ∀ h, s.mem.inHand = some h → aligned h.addr h.size = true
  alerts : s.alerts.Pairwise (fun a b => a < b)
  power  : s.ctrl.por = true → s = { State.reset with
             far := { State.reset.far with waiting := s.far.waiting }, pending := s.pending }

/-- R157, R167, R170, R171 and R173: the two line slots; at most 16 notices; a response only for a line IN SERVICE; a line
executes only while an access is in hand; a preload line waits only in GATED; an idle transmitter has nothing to send; and
the settings that a line was begun under are kept only while it is being sent. -/
structure ConsoleOk (s : State) : Prop where
  slots     : s.console.waiting.isSome = true → s.console.inService.isSome = true
  two       : ¬ (s.console.assembling.isSome = true ∧ s.console.waiting.isSome = true)
  room      : s.console.notices.length ≤ Config.noticeRoom
  response  : s.console.response.isSome = true ↔
                s.console.inService.any (fun v => v.stage == .responding) = true
  sending   : sendingResponse s.console = true → s.console.response.isSome = true
  unsent    : s.console.response = some [] → sendingResponse s.console = true
  executes  : s.lineExecutes = true → s.mem.inHand.isSome = true
  waits     : ∀ h, s.mem.inHand = some h → h.party = .console → s.lineExecutes = true
  gated     : s.ctrl.op = .gated → s.lineExecutes = false
  preload   : ∀ h, s.mem.inHand = some h → h.party = .preload → s.ctrl.op = .gated
  idle      : s.console.tx = .idle → s.console.response = none ∧ s.console.notices = []
  begun     : s.console.begunUnder.isSome = true → s.console.tx ≠ .idle
  lineRoom  : ∀ a, s.console.assembling = some a → a.text.length ≤ Config.lineRoom

end Sys2Proof.Machine
end

