-- ==== Sys2Proof/Certificates/Slice0/Obligations.lean ====
section
/-! DEFINITION. The statements about the CV2440 that the provers are to prove. Their hypotheses speak of the state and the
operands alone; a state named by a record update says everything that a command changes, and so that it changes nothing
else. -/

section

open Sys2Proof Sys2Proof.Machine

/-! ## Taking a command, power-on -/

/-- A step takes the command at the front of the queue; on an empty queue the block idles, which is the model's choice
(notes/assumptions/3.md). -/
def Obligations.StepTakesFront : Prop :=
  (∀ (c : Instr) (rest : List Instr) (s : State),
    step { s with pending := c :: rest } = exec c { s with pending := rest }) ∧
  ∀ s : State, s.pending = [] → step s = .next s

/-- POR_N_ASSERTION gives every piece of state its power-on value; then POR_N_NEGATION samples the straps and the levels
(R193, R133), and without a level to leave it is no event (notes/assumptions/4.md). In between the part takes nothing: every
other command leaves the state as it is. That NEAR_RESET counts as negated until the negation samples it is the model's choice
(notes/assumptions/2.md). That a far response offered to a part that takes none stays offered, through
POR_N_ASSERTION too, and is taken in the event of POR_N_NEGATION, where it is spurious, is the model's choice
(notes/assumptions/11.md). -/
def Obligations.PowerOnAndSampling : Prop :=
  (∀ s : State, ∃ t, exec .porAssertion s = .next t ∧ t.ctrl.por = true ∧ t.pending = s.pending ∧
    (∀ n, t.slot n = none) ∧ t.transit.slotM = none ∧ t.transit.arrivals = 0 ∧ t.near.responses = [] ∧
    t.far.forward = [] ∧ t.far.lastWinner = .forwardQueue ∧ t.far.pulse = none ∧ t.far.waiting = s.far.waiting ∧
    (∀ k, t.entry k = WatchEntry.offValue) ∧ t.hold = [] ∧
    (∀ k, t.record k = { valid := false, addr := 0, size := .one, value := 0, uses := 0 }) ∧
    t.log = { records := [], counter := 0, lost := 0, mode := .wrap } ∧ t.time.stamp = 0 ∧ t.alerts = [] ∧
    t.ctrl.ret = none ∧ t.ctrl.params.holdLimit = 0 ∧ t.ctrl.params.policy = .release ∧
    t.ctrl.params.farTimeout = 1000 ∧ t.ctrl.params.prescale = 0 ∧ t.ctrl.params.quiet = false ∧
    t.ctrl.params.parity = .none ∧ t.preload.offset = 0 ∧ t.preload.lines = 0 ∧
    t.preload.line = { text := [], mark := none } ∧ t.preload.atStart = true ∧ t.near.reset = false ∧ t.time.period = 0 ∧
    t.console.settingsDue = false ∧ t.console.begunUnder = none ∧ t.console.parityInUse = .none ∧ t.console.assembling = none ∧
    t.console.waiting = none ∧ t.console.inService = none ∧ t.console.overrun = false ∧ t.console.response = none ∧
    t.console.tx = .idle ∧ t.console.notices = [] ∧ t.console.noticesLost = 0 ∧ t.mem.cursorAddr = 0 ∧
    t.mem.cursorSize = .four ∧ t.mem.inHand = none) ∧
  (∀ (pins : PowerOnPins) (s : State), s.ctrl.por = true →
    (∀ r ∈ s.far.waiting, (∀ n : SlotNo, r.tag.val = n.val → s.slot n = none) ∧
      (r.tag.val = 16 → s.transit.slotM = none)) → s.far.pulse = none →
    exec (.porNegation pins) s = .next { s with
    ctrl := { s.ctrl with
      op := if pins.preloadEn then .gated else .bypass
      ret := none
      params := { s.ctrl.params with baud := pins.baud }
      por := false
      trigger := pins.trigger }
    near := { s.near with reset := pins.nearReset }
    time := { s.time with period := 0 }
    far := { s.far with waiting := [] }
    console := consoleAfter { s with console := { s.console with baudInUse := pins.baud, parityInUse := .none } }
      (s.far.waiting.map (fun r => .fs r.tag))
    preload := { s.preload with mosi := if pins.preloadEn then preloadReadBits else [] } }) ∧
  (∀ (pins : PowerOnPins) (s : State), s.ctrl.por = false → exec (.porNegation pins) s = .next s) ∧
  (∀ (r : FarResponse) (s : State), s.ctrl.por = true →
    exec (.farResponse r) s = .next { s with far := { s.far with waiting := s.far.waiting ++ [r] } }) ∧
  ∀ (c : Instr) (s : State), s.ctrl.por = true → c ≠ .porAssertion → (∀ pins, c ≠ .porNegation pins) →
    (∀ r, c ≠ .farResponse r) → exec c s = .next s

/-! ## Acceptance -/

/-- A request that fails one of the four conditions of R1 is not taken: it leaves no trace in the part (how the offer is
kept is the model's choice, notes/assumptions/5.md). -/
def Obligations.AcceptanceBackPressure : Prop :=
  ∀ (s : State) (req : NearRequest), s.running →
    (s.ctrl.op = .gated ∨ s.near.reset = true ∨ (∀ n, s.slot n ≠ none) ∨ TagLive s req.tag) →
    exec (.acceptance req) s = .next { s with console := settle s.console }

/-- A misaligned request is answered ALIGN at its acceptance, whatever the operating state: its slot is ANSWERING without
store data, and nothing else of the part changes. -/
def Obligations.AcceptMisaligned : Prop :=
  ∀ (s : State) (req : NearRequest) (n : SlotNo), Takes s req n → aligned req.addr req.size = false →
    exec (.acceptance req) s = .next { s with
      transit := accepted s n { accessOf s req .answering .align none with data := none }
      near := { s.near with
        responses := s.near.responses ++ [{ tag := req.tag, reason := .align, data := none, slot := some n }] }
      console := settle s.console }

/-- In BYPASS an aligned request is forwarded: unblocked it joins the tail of the forward queue, blocked it joins the tail
of the hold queue with reason ORDER and pending action FORWARD. -/
def Obligations.AcceptBypass : Prop :=
  ∀ (s : State) (req : NearRequest) (n : SlotNo), Takes s req n → aligned req.addr req.size = true →
    s.ctrl.op = .bypass →
    (Unblocked s (accessOf s req .queued .forward none) →
      exec (.acceptance req) s = .next { s with
        transit := accepted s n (accessOf s req .queued .forward none)
        far := { s.far with forward := s.far.forward ++ [n] }
        console := settle s.console }) ∧
    (¬ Unblocked s (accessOf s req .queued .forward none) →
      exec (.acceptance req) s = .next { s with
        transit := accepted s n { accessOf s req .held .forward none with
          holdReason := some .order, pendAction := some .forward }
        hold := s.hold ++ [n]
        console := settle s.console })

/-- In FROZEN an aligned request is held with reason FREEZE, without a judgement, its timer loaded from the hold limit, and
`^HD` is raised. -/
def Obligations.AcceptFrozen : Prop :=
  ∀ (s : State) (req : NearRequest) (n : SlotNo), Takes s req n → aligned req.addr req.size = true →
    s.ctrl.op = .frozen →
    exec (.acceptance req) s = .next { s with
      transit := accepted s n { accessOf s req .held .hold none with
        holdReason := some .freeze, holdTimer := loaded s.ctrl.params.holdLimit }
      hold := s.hold ++ [n]
      console := consoleAfter s [.hd n req.tag none req.addr] }

/-! ## Judgement -/

/-- A judgement counts, fires and arms every entry as its own state asks: a match above zero counts down, a match at zero
fires, a DORMANT entry whose source fires is armed, and every other entry stays as it was. -/
def Obligations.JudgementCounts : Prop :=
  ∀ (s : State) (req : NearRequest) (n : SlotNo), Takes s req n → aligned req.addr req.size = true →
    s.ctrl.op = .watch → ∃ t, exec (.acceptance req) s = .next t ∧ ∀ k : EntryNo,
      (Matches (s.entry k) req → (s.entry k).remaining ≠ 0 →
        t.entry k = { s.entry k with remaining := (s.entry k).remaining - 1 }) ∧
      (Fires (s.entry k) req → (s.entry k).once = true →
        t.entry k = { s.entry k with
          state := .spent
          fires := if (s.entry k).fires = 0xFFFF then 0xFFFF else (s.entry k).fires + 1 }) ∧
      (Fires (s.entry k) req → (s.entry k).once = false →
        t.entry k = { s.entry k with
          reload := (s.entry k).pendingReload.getD (s.entry k).reload
          pendingReload := none
          remaining := (s.entry k).pendingReload.getD (s.entry k).reload
          fires := if (s.entry k).fires = 0xFFFF then 0xFFFF else (s.entry k).fires + 1 }) ∧
      ((s.entry k).state = .dormant → (∃ m, (s.entry k).armSource = some (.entry m) ∧ Fires (s.entry m) req) →
        t.entry k = { s.entry k with state := .armed }) ∧
      (¬ Matches (s.entry k) req →
        ¬ ((s.entry k).state = .dormant ∧ ∃ m, (s.entry k).armSource = some (.entry m) ∧ Fires (s.entry m) req) →
        t.entry k = s.entry k)

/-- In WATCH an access on which no entry fires, or on which PASS or NOTE wins, is forwarded under the order guard as in
BYPASS: its slot keeps the winning entry, if any, as its owner and, for NOTE, names its capture record; without a NOTE the
log is as it was, and without a firing the alert set and the console too. -/
def Obligations.JudgedForward : Prop :=
  ∀ (s : State) (req : NearRequest) (n : SlotNo) (o : Option EntryNo) (note : Bool), Takes s req n →
    aligned req.addr req.size = true → s.ctrl.op = .watch →
    ((o = none ∧ note = false ∧ ∀ k, ¬ Fires (s.entry k) req) ∨
      ∃ e, o = some e ∧ Owns s req e (if note then .note else .pass)) →
    ∃ t q, exec (.acceptance req) s = .next t ∧
      (q = if t.log.counter = s.log.counter then none else some t.log.counter) ∧
      (note = false → t.log = s.log) ∧
      (o = none → t.alerts = s.alerts ∧ t.console = settle s.console) ∧
      (Unblocked s (accessOf s req .queued .forward o) → t = { s with
        watch := t.watch
        alerts := t.alerts
        log := t.log
        transit := accepted s n { accessOf s req .queued .forward o with logSeq := q }
        far := { s.far with forward := s.far.forward ++ [n] }
        console := t.console }) ∧
      (¬ Unblocked s (accessOf s req .queued .forward o) → t = { s with
        watch := t.watch
        alerts := t.alerts
        log := t.log
        transit := accepted s n { accessOf s req .held .forward o with
          logSeq := q, holdReason := some .order, pendAction := some .forward }
        hold := s.hold ++ [n]
        console := t.console })

/-- In WATCH an access whose winning action is HOLD or FREEZE is held with reason WATCH, its timer loaded from the hold
limit; a FREEZE then takes the part to FROZEN with return state WATCH. -/
def Obligations.JudgedHold : Prop :=
  ∀ (s : State) (req : NearRequest) (n : SlotNo) (o : EntryNo) (a : Action), Takes s req n →
    aligned req.addr req.size = true → s.ctrl.op = .watch → Owns s req o a → (a = .hold ∨ a = .freeze) →
    ∃ t q, exec (.acceptance req) s = .next t ∧
      (q = if t.log.counter = s.log.counter then none else some t.log.counter) ∧
      t = { s with
        watch := t.watch
        alerts := t.alerts
        log := t.log
        transit := accepted s n { accessOf s req .held .hold (some o) with
          logSeq := q, holdReason := some .watch, holdTimer := loaded s.ctrl.params.holdLimit }
        hold := s.hold ++ [n]
        ctrl := if a = .freeze then { s.ctrl with op := .frozen, ret := some .watch } else s.ctrl
        console := t.console }

/-- In WATCH an access whose winning action is SUBST is taken to the record that its owner names: blocked, it waits with
reason ORDER; a hit is answered OK from the record, or absorbed by it, and counted; a miss joins the forward queue. -/
def Obligations.JudgedSubst : Prop :=
  ∀ (s : State) (req : NearRequest) (n : SlotNo) (o : EntryNo) (k : RecordNo), Takes s req n →
    aligned req.addr req.size = true → s.ctrl.op = .watch → Owns s req o .subst → (s.entry o).record = some k →
    ∃ t q, exec (.acceptance req) s = .next t ∧
      (q = if t.log.counter = s.log.counter then none else some t.log.counter) ∧
      (¬ Unblocked s (accessOf s req .queued .substitute (some o)) → t = { s with
        watch := t.watch
        alerts := t.alerts
        log := t.log
        transit := accepted s n { accessOf s req .held .substitute (some o) with
          logSeq := q, holdReason := some .order, pendAction := some .substitute }
        hold := s.hold ++ [n]
        console := t.console }) ∧
      (Unblocked s (accessOf s req .queued .substitute (some o)) →
        (s.record k).valid = true → (s.record k).covers req.addr req.size = true → t = { s with
          watch := t.watch
          alerts := t.alerts
          log := t.log
          transit := accepted s n (accessOf s req .answering .substitute (some o))
          near := { s.near with responses := s.near.responses ++
            [{ tag := req.tag, reason := .ok, slot := some n,
               data := readData req.cls ((s.record k).read req.addr req.size) }] }
          subst := s.subst.set k { (if req.cls = .store then (s.record k).write req.addr req.size req.lanes
              else s.record k) with
            uses := if (s.record k).uses = 0xFFFF then 0xFFFF else (s.record k).uses + 1 }
          console := t.console }) ∧
      (Unblocked s (accessOf s req .queued .substitute (some o)) →
        ((s.record k).valid = false ∨ (s.record k).covers req.addr req.size = false) → t = { s with
          watch := t.watch
          alerts := t.alerts
          log := t.log
          transit := accepted s n { accessOf s req .queued .substitute (some o) with logSeq := q }
          far := { s.far with forward := s.far.forward ++ [n] }
          console := t.console })

/-- The capture record of a judgement: made with the next sequence number when the log has room, in place of the oldest
when it is full, and otherwise counted as lost. A hit closes it SUBSTITUTED at once, a miss marks it, every other one
stays OPEN. -/
def Obligations.JudgementRecord : Prop :=
  ∀ (s : State) (req : NearRequest) (n : SlotNo) (o : EntryNo) (a : Action) (fired : List EntryNo), Takes s req n →
    aligned req.addr req.size = true → s.ctrl.op = .watch → Owns s req o a → a ≠ .pass → FiredList s req fired →
    (∀ c ∈ s.log.records, c.seq ≤ s.log.counter) →
    ∃ t, exec (.acceptance req) s = .next t ∧
      (¬ RoomFor s.log → t.log = oneLost s.log) ∧
      (RoomFor s.log → (a ≠ .subst ∨ ¬ Unblocked s (accessOf s req .queued .substitute (some o))) →
        t.log = withRecord s.log (recordOf s req n fired o (dispFor a) (.opened none))) ∧
      (RoomFor s.log → a = .subst → Unblocked s (accessOf s req .queued .substitute (some o)) →
        ∀ k, (s.entry o).record = some k →
          ((s.record k).valid = true ∧ (s.record k).covers req.addr req.size = true →
            t.log = withRecord s.log (recordOf s req n fired o .substitute
              (.closed .substituted (some .ok) (readData req.cls ((s.record k).read req.addr req.size))))) ∧
          (¬ ((s.record k).valid = true ∧ (s.record k).covers req.addr req.size = true) →
            t.log = withRecord s.log (recordOf s req n fired o .substitute (.opened (some .substMiss)))))

/-- The alerts and the notices of a judgement: the fired entries with their alert flag join the alert set, and the notices
are offered in the order `^AL` ascending, `^HD`, `^FZ`, and `^LF` for a first loss. -/
def Obligations.JudgementNotices : Prop :=
  ∀ (s : State) (req : NearRequest) (n : SlotNo) (o : EntryNo) (a : Action) (fired : List EntryNo), Takes s req n →
    aligned req.addr req.size = true → s.ctrl.op = .watch → Owns s req o a → FiredList s req fired →
    ∃ t, exec (.acceptance req) s = .next t ∧
      (∀ k, k ∈ t.alerts ↔ k ∈ s.alerts ∨ (Fires (s.entry k) req ∧ (s.entry k).alert = true)) ∧
      ∃ lf : List Notice,
        ((a ≠ .pass ∧ ¬ RoomFor s.log ∧ s.log.lost = 0) → lf = [.lf]) ∧
        (¬ (a ≠ .pass ∧ ¬ RoomFor s.log ∧ s.log.lost = 0) → lf = []) ∧
        t.console = consoleAfter s
          ((fired.filter (fun k => (s.entry k).alert && !s.alerts.contains k)).map Notice.al
            ++ (if a = .hold ∨ a = .freeze then [.hd n req.tag (some o) req.addr] else [])
            ++ (if a = .freeze then [.fz] else [])
            ++ lf)

/-- The bytes of a substitution record: an access that it covers reads, at each of its byte addresses, the record's byte at
that address, and a store replaces exactly the record's bytes at its own byte addresses. -/
def Obligations.RecordBytes : Prop :=
  ∀ (r : SubstRecord) (a : Word) (z : Size), r.covers a z = true →
    (∀ k, k < sizeBytes z → byteOf (r.read a z) k = byteOf r.value (a.toNat - r.addr.toNat + k)) ∧
    (∀ k, sizeBytes z ≤ k → byteOf (r.read a z) k = 0) ∧
    ∀ (d : Data) (j : Nat), j < 8 →
      byteOf (r.write a z d).value j =
        if a.toNat - r.addr.toNat ≤ j ∧ j < a.toNat - r.addr.toNat + sizeBytes z
        then byteOf d (j - (a.toNat - r.addr.toNat)) else byteOf r.value j

/-! ## Responses, resets and edges -/

/-- The requester takes the head entry of the near response queue: it passes with its tag, its reason and its data, and the
slot it names becomes FREE. With no entry there is no delivery (notes/assumptions/4.md). -/
def Obligations.DeliveryTakesHead : Prop :=
  ∀ s : State, s.running →
    (∀ e rest, s.near.responses = e :: rest → exec .delivery s = .next { s with
      near := { s.near with
        responses := rest
        lastResponse := some { tag := e.tag, reason := e.reason, lanes := e.data.getD 0 } }
      transit := match e.slot with
        | some n => { s.transit with slots := s.transit.slots.set n none }
        | none => s.transit
      console := settle s.console }) ∧
    (s.near.responses = [] → exec .delivery s = .next { s with console := settle s.console })

/-- The assertion of NEAR_RESET frees every HELD, QUEUED and ANSWERING slot, orphans every ISSUED one, empties the three
queues, closes ABORTED the records that those slots name, raises `^NR`, and changes nothing else; its negation reopens
acceptance. A level already seen is no event (notes/assumptions/4.md). -/
def Obligations.NearReset : Prop :=
  ∀ s : State, s.running →
    (s.near.reset = false → ∃ t, exec .nearResetAssertion s = .next t ∧
      t = { s with
        transit := { s.transit with slots := t.transit.slots }
        near := { s.near with responses := [], reset := true }
        far := { s.far with forward := [] }
        hold := []
        log := { s.log with records := t.log.records }
        console := consoleAfter s [.nr] } ∧
      (∀ n a, s.slot n = some a → (a.state = .held ∨ a.state = .queued ∨ a.state = .answering) → t.slot n = none) ∧
      (∀ n a, s.slot n = some a → a.state = .issued →
        t.slot n = some { a with state := .orphan, tag := none, farTimer := none, logSeq := none }) ∧
      (∀ n a, s.slot n = some a → a.state = .orphan → t.slot n = some a) ∧
      (∀ n, s.slot n = none → t.slot n = none) ∧
      t.log.records.length = s.log.records.length ∧
      ∀ (i : Nat) (c : CaptureRecord), s.log.records[i]? = some c →
        ((∃ n a, s.slot n = some a ∧ (a.state = .held ∨ a.state = .queued ∨ a.state = .issued) ∧
            a.logSeq = some c.seq) → t.log.records[i]? = some (c.close .aborted (some .abort) none)) ∧
        (¬ (∃ n a, s.slot n = some a ∧ (a.state = .held ∨ a.state = .queued ∨ a.state = .issued) ∧
            a.logSeq = some c.seq) → t.log.records[i]? = some c)) ∧
    (s.near.reset = true → exec .nearResetAssertion s = .next { s with console := settle s.console }) ∧
    exec .nearResetNegation s = .next { s with near := { s.near with reset := false }, console := settle s.console }

/-- A rising edge of TRIGGER taken in WATCH arms every DORMANT entry whose arm source is TRIGGER and no other entry; taken
in another state it arms none; a falling edge arms none. The last level follows the edges. That a rising edge while the
last level is asserted is no event is deduced (notes/assumptions/4.md), and so is that R132 makes no exception for an entry
on which a `WS` follows (notes/assumptions/28.md). -/
def Obligations.TriggerEdges : Prop :=
  ∀ s : State, s.running →
    (s.ctrl.trigger = false → ∃ t, exec .triggerRisingEdge s = .next t ∧
      t = { s with watch := t.watch, ctrl := { s.ctrl with trigger := true }, console := settle s.console } ∧
      ∀ k, ((s.ctrl.op = .watch ∧ (s.entry k).state = .dormant ∧ (s.entry k).armSource = some .trigger) →
          t.entry k = { s.entry k with state := .armed }) ∧
        (¬ (s.ctrl.op = .watch ∧ (s.entry k).state = .dormant ∧ (s.entry k).armSource = some .trigger) →
          t.entry k = s.entry k)) ∧
    (s.ctrl.trigger = true → exec .triggerRisingEdge s = .next { s with console := settle s.console }) ∧
    exec .triggerFallingEdge s = .next { s with
      ctrl := { s.ctrl with trigger := false }, console := settle s.console }

/-! ## The far link -/

/-- The issue arbiter: the only contender that waits is issued and the mark stays; of two, the one that did not win last is
issued and the mark records it; with none, or while FAR_RESET is asserted, nothing is issued. The issued slot becomes
ISSUED with its far timer loaded, and its request passes on the far link under its far tag. That all eight lanes of a FETCH or
LOAD request are at 00h is the model's choice (notes/assumptions/29.md). -/
def Obligations.IssueContest : Prop :=
  ∀ s : State, s.running →
    (s.far.pulse ≠ none → exec .issue s = .next { s with console := settle s.console }) ∧
    (s.far.pulse = none → s.far.forward = [] → (∀ m, s.transit.slotM = some m → m.state ≠ .queued) →
      exec .issue s = .next { s with console := settle s.console }) ∧
    (∀ n rest a, s.far.pulse = none → s.far.forward = n :: rest → s.slot n = some a →
      ((∀ m, s.transit.slotM = some m → m.state ≠ .queued) ∨ s.far.lastWinner = .slotM) →
      exec .issue s = .next { s with
        transit := { s.transit with
          slots := s.transit.slots.set n (some { a with state := .issued, farTimer := loaded s.ctrl.params.farTimeout }) }
        far := { s.far with
          forward := rest
          lastWinner := if s.slotMWaits then .forwardQueue else s.far.lastWinner
          lastRequest := some
            { tag := n.val, cls := a.cls, addr := a.addr, size := a.size, lanes := a.data.getD 0 } }
        console := settle s.console }) ∧
    (∀ m, s.far.pulse = none → s.transit.slotM = some m → m.state = .queued →
      (s.far.forward = [] ∨ s.far.lastWinner = .forwardQueue) →
      exec .issue s = .next { s with
        transit := { s.transit with
          slotM := some { m with state := .issued, farTimer := loaded s.ctrl.params.farTimeout } }
        far := { s.far with
          lastWinner := if s.far.forward = [] then s.far.lastWinner else .slotM
          lastRequest := some { tag := 16, cls := m.cls, addr := m.addr, size := m.size, lanes := m.data.getD 0 } }
        console := settle s.console })

/-- A far response to an ISSUED traffic slot answers it: OK with the read data of its size, or FAULT without data; its timer
is gone, and the OPEN record it names is closed by the path it took to memory. -/
def Obligations.FarResponseCompletes : Prop :=
  ∀ (s : State) (r : FarResponse) (n : SlotNo) (a : Access) (g : NearTag), s.running → s.far.pulse = none →
    r.tag.val = n.val → s.slot n = some a → a.state = .issued → a.tag = some g →
    ∃ (reason : Reason) (data : Option Data) (t : State),
      (r.ok = true → reason = .ok ∧ data = readData a.cls (maskData a.size r.lanes)) ∧
      (r.ok = false → reason = .fault ∧ data = none) ∧
      exec (.farResponse r) s = .next t ∧
      t = { s with
        transit := { s.transit with slots := s.transit.slots.set n (some (answered a)) }
        near := { s.near with
          responses := s.near.responses ++ [{ tag := g, reason := reason, data := data, slot := some n }] }
        log := t.log
        console := settle s.console } ∧
      (a.logSeq = none → t.log = s.log) ∧
      ∀ q c mark, a.logSeq = some q → s.log.records.find? (fun c => c.seq = q) = some c → c.status = .opened mark →
        t.log = logClosed s.log (some q)
          (match mark with
            | none => .forwarded
            | some .substMiss => .substMiss
            | some .releasedByExpiry => .expiredReleased) reason data

/-- A far response that completes no access: it frees the orphan that its tag names; to any other slot, or to a tag above
16, it is spurious, raises `^FS` and changes no slot; while FAR_RESET is asserted it is not taken (that it waits in a list
is the model's choice, notes/assumptions/11.md). -/
def Obligations.FarResponseDropped : Prop :=
  ∀ (s : State) (r : FarResponse), s.running →
    (s.far.pulse ≠ none → exec (.farResponse r) s = .next { s with
      far := { s.far with waiting := s.far.waiting ++ [r] }, console := settle s.console }) ∧
    (s.far.pulse = none →
      (∀ n a, r.tag.val = n.val → s.slot n = some a → a.state = .orphan →
        exec (.farResponse r) s = .next { s with
          transit := { s.transit with slots := s.transit.slots.set n none }, console := settle s.console }) ∧
      (∀ m, r.tag.val = 16 → s.transit.slotM = some m → m.state = .orphan →
        exec (.farResponse r) s = .next { s with
          transit := { s.transit with slotM := none }, console := settle s.console }) ∧
      (((∃ n : SlotNo, r.tag.val = n.val ∧ ∀ a, s.slot n = some a → a.state ≠ .issued ∧ a.state ≠ .orphan) ∨
          (r.tag.val = 16 ∧ ∀ m, s.transit.slotM = some m → m.state = .queued) ∨ 16 < r.tag.val) →
        exec (.farResponse r) s = .next { s with console := consoleAfter s [.fs r.tag] }))

/-- A far response to an ISSUED slot M frees it and ends the access in hand. The console is answered with the address and
the read data, with the address alone for a write, or `?FE`; a preload line is counted, or preload ends with the error;
an abandoned access is discarded, and a console line that still executes then ends its service, so that a line that waits
enters service and is served in the same event, with slot M FREE. An accepted preload line that ended at the stream limit is followed by the error PS. The cursor moves past
the item on success and for a party alone. -/
def Obligations.FarResponseSlotM : Prop :=
  ∀ (s : State) (r : FarResponse) (m : MAccess) (h : InHand), s.running → s.far.pulse = none → r.tag.val = 16 →
    s.transit.slotM = some m → m.state = .issued → s.mem.inHand = some h →
    (∀ v, h.party = .console → s.console.inService = some v → sendingResponse s.console = false →
      ∃ t, exec (.farResponse r) s = .next t ∧
        (r.ok = true →
          t = { s with
            transit := { s.transit with slotM := none }
            mem := { cursorAddr := h.addr + BitVec.ofNat 32 (sizeBytes h.size), cursorSize := h.size, inHand := none }
            console := t.console } ∧
          Answered s t v.line [] [match h.command with
            | .mr => fields '=' [hexWord h.addr, hexData h.size (maskData h.size r.lanes)]
            | .mw => fields '=' [hexWord h.addr]]) ∧
        (r.ok = false →
          t = { s with
            transit := { s.transit with slotM := none }, mem := { s.mem with inHand := none }, console := t.console } ∧
          Answered s t v.line [] [['?', 'F', 'E']])) ∧
    (h.party = .preload → s.ctrl.op = .gated → 65536 ≤ s.preload.offset → r.ok = true →
      exec (.farResponse r) s = .next (preloadErrorEnd { s with
        transit := { s.transit with slotM := none }
        mem := { cursorAddr := h.addr + BitVec.ofNat 32 (sizeBytes h.size), cursorSize := h.size, inHand := none }
        preload := { s.preload with lines := s.preload.lines + 1 } } .ps)) ∧
    (h.party = .preload → s.ctrl.op = .gated → r.ok = false → exec (.farResponse r) s = .next { preloadErrorEnd s .fe with
        transit := { s.transit with slotM := none }, mem := { s.mem with inHand := none } }) ∧
    (h.party = .preload → s.ctrl.op = .gated → s.preload.offset < 65536 →
      r.ok = true → exec (.farResponse r) s = .next { s with
        transit := { s.transit with slotM := none }
        mem := { cursorAddr := h.addr + BitVec.ofNat 32 (sizeBytes h.size), cursorSize := h.size, inHand := none }
        preload := { s.preload with lines := s.preload.lines + 1 }
        console := settle s.console }) ∧
    (h.party = .nobody → s.lineExecutes = false → exec (.farResponse r) s = .next { s with
      transit := { s.transit with slotM := none }
      mem := { s.mem with inHand := none }
      console := settle s.console }) ∧
    (∀ v, h.party = .nobody → s.console.inService = some v → v.stage = .executing → v.settings = false →
      s.console.waiting = none → exec (.farResponse r) s = .next { s with
        transit := { s.transit with slotM := none }
        mem := { s.mem with inHand := none }
        console := settle { s.console with inService := none, response := none } }) ∧
    (∀ v w, h.party = .nobody → s.console.inService = some v → v.stage = .executing → s.console.waiting = some w →
      ∃ t x, exec (.farResponse r) s = .next t ∧ t.console.waiting = none ∧ t.console.inService = some x ∧ x.line = w ∧
        (v.settings = false → sendingResponse s.console = false → Enters { s with
          transit := { s.transit with slotM := none }
          mem := { s.mem with inHand := none }
          console := { s.console with inService := none, waiting := none, response := none } } t w))

/-- The FAR_RESET pulse ends when its second tick has been taken, and not before: the line is negated, and a response that
is still offered is taken as if it came after the negation. Where no slot is ISSUED or ORPHAN, which is so after a pulse,
each of several responses that waited is spurious and raises `^FS`, in their order (notes/assumptions/10.md and 11.md). -/
def Obligations.FarResetNegation : Prop :=
  ∀ s : State, s.running →
    (s.far.pulse ≠ some 0 → exec .farResetNegation s = .next { s with console := settle s.console }) ∧
    (s.far.pulse = some 0 → s.far.waiting = [] → exec .farResetNegation s = .next { s with
      far := { s.far with pulse := none }, console := settle s.console }) ∧
    (∀ r, s.far.pulse = some 0 → s.far.waiting = [r] →
      exec .farResetNegation s =
        exec (.farResponse r) { s with far := { s.far with pulse := none, waiting := [] } }) ∧
    (s.far.pulse = some 0 → (∀ n a, s.slot n = some a → a.state ≠ .issued ∧ a.state ≠ .orphan) →
      (∀ m, s.transit.slotM = some m → m.state = .queued) → exec .farResetNegation s = .next { s with
        far := { s.far with pulse := none, waiting := [] }
        console := consoleAfter s (s.far.waiting.map (fun r => .fs r.tag)) })

/-- A tick: the stamp counter goes on, the period in force becomes that of the prescale code, every far timer and, outside
FROZEN, every hold timer goes down by one and stays at zero, and the FAR_RESET pulse loses one tick; that the line stays
asserted from the second tick to the event of its negation is deduced (notes/assumptions/10.md), and so is that a timer stays
at zero until its expiry is taken (notes/assumptions/23.md). -/
def Obligations.TickCounts : Prop :=
  ∀ s : State, s.running → ∃ t, exec .tick s = .next t ∧
    t = { s with
      transit := { s.transit with slots := t.transit.slots, slotM := t.transit.slotM }
      far := { s.far with pulse := s.far.pulse.map (fun k => if k = 0 then 0 else k - 1) }
      time := { period := s.ctrl.params.prescale, stamp := s.time.stamp + 1 }
      console := settle s.console } ∧
    (∀ n, s.slot n = none → t.slot n = none) ∧
    (∀ n a, s.slot n = some a → t.slot n = some { a with
      farTimer := a.farTimer.map (fun c => if c = 0 then 0 else c - 1)
      holdTimer := if s.ctrl.op = .frozen then a.holdTimer else a.holdTimer.map (fun c => if c = 0 then 0 else c - 1) }) ∧
    t.transit.slotM = s.transit.slotM.map (fun m =>
      { m with farTimer := m.farTimer.map (fun c => if c = 0 then 0 else c - 1) })

/-- The far timeout of a traffic slot, due when its timer stands at zero: an entry LATE without a slot number is appended,
the record is closed FAR-TIMEOUT, the slot becomes an orphan without its tag, and `^FT` is raised. Not due, it does not
happen (notes/assumptions/4.md). -/
def Obligations.FarTimeout : Prop :=
  ∀ (s : State) (n : SlotNo), s.running →
    (∀ a g, s.slot n = some a → a.state = .issued → a.farTimer = some 0 → a.tag = some g →
      exec (.farTimeout n) s = .next { s with
        transit := { s.transit with
          slots := s.transit.slots.set n (some { a with state := .orphan, tag := none, farTimer := none, logSeq := none }) }
        near := { s.near with
          responses := s.near.responses ++ [{ tag := g, reason := .late, data := none, slot := none }] }
        log := logClosed s.log a.logSeq .farTimeout .late none
        console := consoleAfter s [.ft n] }) ∧
    ((∀ a, s.slot n = some a → ¬ (a.state = .issued ∧ a.farTimer = some 0)) →
      exec (.farTimeout n) s = .next { s with console := settle s.console })

/-- The far timeout of slot M, due when its timer stands at zero: slot M becomes an orphan, the access in hand ends, the
cursor stays, and the console is answered `?FT`, or preload ends with FT, or the result is discarded, where a console line
that still executes ends its service and a line that waits enters service and is served in the same event. Not due, it does not happen
(notes/assumptions/4.md). -/
def Obligations.SlotMFarTimeout : Prop :=
  ∀ (s : State), s.running →
    (∀ m h, s.transit.slotM = some m → m.state = .issued → m.farTimer = some 0 → s.mem.inHand = some h →
      (∀ v, h.party = .console → s.console.inService = some v → sendingResponse s.console = false →
        ∃ t, exec .slotMFarTimeout s = .next t ∧
          t = { s with
            transit := { s.transit with slotM := some { m with state := .orphan, farTimer := none } }
            mem := { s.mem with inHand := none }
            console := t.console } ∧
          Answered s t v.line [] [['?', 'F', 'T']]) ∧
      (h.party = .preload → s.ctrl.op = .gated → exec .slotMFarTimeout s = .next { preloadErrorEnd s .ft with
        transit := { s.transit with slotM := some { m with state := .orphan, farTimer := none } }
        mem := { s.mem with inHand := none } }) ∧
      (h.party = .nobody → s.lineExecutes = false → exec .slotMFarTimeout s = .next { s with
        transit := { s.transit with slotM := some { m with state := .orphan, farTimer := none } }
        mem := { s.mem with inHand := none }
        console := settle s.console }) ∧
      (∀ v, h.party = .nobody → s.console.inService = some v → v.stage = .executing → v.settings = false →
        s.console.waiting = none → exec .slotMFarTimeout s = .next { s with
          transit := { s.transit with slotM := some { m with state := .orphan, farTimer := none } }
          mem := { s.mem with inHand := none }
          console := settle { s.console with inService := none, response := none } }) ∧
      (∀ v w, h.party = .nobody → s.console.inService = some v → v.stage = .executing → s.console.waiting = some w →
        ∃ t x, exec .slotMFarTimeout s = .next t ∧ t.console.waiting = none ∧ t.console.inService = some x ∧
          x.line = w ∧ (v.settings = false → sendingResponse s.console = false → Enters { s with
            transit := { s.transit with slotM := some { m with state := .orphan, farTimer := none } }
            mem := { s.mem with inHand := none }
            console := { s.console with inService := none, waiting := none, response := none } } t w))) ∧
    ((∀ m, s.transit.slotM = some m → ¬ (m.state = .issued ∧ m.farTimer = some 0)) →
      exec .slotMFarTimeout s = .next { s with console := settle s.console })

/-! ## Held accesses -/

/-- The expiry of a hold timer. Under policy FAIL the slot is answered DENIED, blocked or not, its record is closed
EXPIRED-FAILED, `^EX` is raised, and one order clearance follows. Under policy RELEASE an unblocked slot joins the forward
queue and one order clearance follows; a blocked slot stays in its place as an ORDER slot with pending action FORWARD.
Either way its OPEN record takes the mark of release by expiry and `^EX` is raised. An expiry that is not due does not happen
(notes/assumptions/4.md). -/
def Obligations.HoldExpiry : Prop :=
  (∀ (s u : State) (n : SlotNo) (a : Access) (g : NearTag), s.running → s.ctrl.params.policy = .fail →
    s.slot n = some a → a.state = .held → a.holdTimer = some 0 → a.tag = some g →
    u = { s with
      hold := s.hold.filter (fun m => m != n)
      transit := { s.transit with slots := s.transit.slots.set n (some (answered a)) }
      near := { s.near with
        responses := s.near.responses ++ [{ tag := g, reason := .denied, data := none, slot := some n }] }
      log := logClosed s.log a.logSeq .expiredFailed .denied none
      console := offerAll s [.ex n] } →
    exec (.expiry n) s = .next { u.clearance.1 with console := settle u.console }) ∧
  (∀ (s u : State) (n : SlotNo) (a : Access), s.running → s.ctrl.params.policy = .release →
    s.slot n = some a → a.state = .held → a.holdTimer = some 0 →
    ((∀ m ∈ s.ahead n, ¬ Blocks s m a) →
      u = { s with
        hold := s.hold.filter (fun m => m != n)
        transit := { s.transit with slots := s.transit.slots.set n (some (left a .queued)) }
        far := { s.far with forward := s.far.forward ++ [n] }
        log := logMarked s.log a.logSeq .releasedByExpiry
        console := offerAll s [.ex n] } →
      exec (.expiry n) s = .next { u.clearance.1 with console := settle u.console }) ∧
    (¬ (∀ m ∈ s.ahead n, ¬ Blocks s m a) →
      exec (.expiry n) s = .next { s with
        transit := { s.transit with
          slots := s.transit.slots.set n (some { a with holdReason := some .order, holdTimer := none, pendAction := some .forward }) }
        log := logMarked s.log a.logSeq .releasedByExpiry
        console := consoleAfter s [.ex n] })) ∧
  ∀ (s : State) (n : SlotNo), s.running →
    (∀ a, s.slot n = some a → ¬ (a.state = .held ∧ a.holdTimer = some 0)) →
    exec (.expiry n) s = .next { s with console := settle s.console }

/-- Order clearance: no slot but an ORDER slot moves, the queue keeps its order, the number it gives is the number of slots
that left, every ORDER slot that stays has a blocker, an ORDER slot with a blocker that stays held stays as it is, and the
console and the tables of the other blocks are untouched. The slots that leave go by their pending action, in queue order:
to the tail of the forward queue, or by a hit of their record to the tail of the near response queue. Each substitution
record changes by the hits of the slots that leave, in queue order, and by nothing else; each capture record by the close of
the hit, or the mark of the miss, of the slot that names it, and by nothing else. -/
def Obligations.ClearanceLaw : Prop :=
  ∀ s : State, SlotsOk s → TransitOk s →
    OrderOk s.clearance.1 ∧
    s.clearance.1.hold.Sublist s.hold ∧
    s.clearance.1.hold.length + s.clearance.2 = s.hold.length ∧
    (∀ n, s.heldAs n .order = false → s.clearance.1.slot n = s.slot n ∧ (n ∈ s.hold → n ∈ s.clearance.1.hold)) ∧
    (∀ n a, n ∈ s.hold → s.slot n = some a → (∃ m ∈ s.ahead n, m ∈ s.clearance.1.hold ∧ Blocks s m a) →
      n ∈ s.clearance.1.hold) ∧
    (∀ n, n ∈ s.clearance.1.hold → s.clearance.1.slot n = s.slot n) ∧
    (∀ n a, n ∈ s.hold → n ∉ s.clearance.1.hold → s.slot n = some a → Departs s s.clearance.1 n a) ∧
    s.clearance.1.far.forward = s.far.forward ++
      s.hold.filter (fun n => !s.clearance.1.hold.contains n && s.clearance.1.slotIs n .queued) ∧
    RespondsFor s s.clearance.1 (s.hold.filter (fun n => s.clearance.1.slotIs n .answering)) ∧
    (∀ k, HitsMade s s.clearance.1 s.hold k (s.clearance.1.record k)) ∧
    (LogOk s → LogFollows s s.clearance.1) ∧
    ((∀ n a, ¬ SubstLeaves s s.clearance.1 n a) →
      s.clearance.1.subst = s.subst ∧ s.clearance.1.log = s.log ∧ s.clearance.1.near = s.near) ∧
    s.clearance.1 = { s with
      transit := { s.transit with slots := s.clearance.1.transit.slots }
      near := { s.near with responses := s.clearance.1.near.responses }
      far := { s.far with forward := s.clearance.1.far.forward }
      hold := s.clearance.1.hold
      subst := s.clearance.1.subst
      log := { s.log with records := s.clearance.1.log.records } }

/-! ## The verbs

`Serves s src` says that a line from `src` is executed when it arrives; `Accepted` and `Refused` say what its answer, or the
discarding of it, leaves at the console port and the preload port. That a verb's row is the arrival of the whole line that
spells it is the model's choice (notes/assumptions/6.md for the console, 7.md for the preload stream), and
`TypedLineIsCommand` and `StreamedLineIsCommand` below say that the line's characters and bytes do the same. -/

/-- `FR`: every ISSUED traffic slot is answered ABORT by an entry without a slot number, in ascending slot number, its record
is closed ABORTED and it becomes FREE; every orphan is freed; slot M is freed with its access in hand when ISSUED; FAR_RESET
is asserted for two ticks (notes/assumptions/10.md); the answer counts the entries and the orphans. That an access in hand ends
whatever its waiting party is deduced (notes/assumptions/18.md). -/
def Obligations.FrResetsFarLink : Prop :=
  ∀ (s : State) (src : Source) (ops : List Token), Serves s src → (reads ops readNone).isSome = true →
    ∃ (t : State) (entries : List RespEntry) (a o : Nat), exec (.fr src ops) s = .next t ∧
      t = { s with
        transit := { s.transit with slots := t.transit.slots, slotM := t.transit.slotM }
        near := { s.near with responses := s.near.responses ++ entries }
        far := { s.far with pulse := some 2 }
        log := { s.log with records := t.log.records }
        mem := { s.mem with inHand := t.mem.inHand }
        console := t.console
        preload := t.preload } ∧
      Accepted s t src .fr ops [] [fields '=' [hexPlain a, hexPlain o]] ∧
      (∀ n b, s.slot n = some b → (b.state = .issued ∨ b.state = .orphan) → t.slot n = none) ∧
      (∀ n b, s.slot n = some b → b.state ≠ .issued → b.state ≠ .orphan → t.slot n = some b) ∧
      (∀ n, s.slot n = none → t.slot n = none) ∧
      ((∀ n b, s.slot n = some b → b.state = .issued → b.tag ≠ none) →
        entries = allSixteen.filterMap (fun n => ((s.slot n).filter (fun b => b.state == .issued)).bind (fun b =>
          b.tag.map (fun g => { tag := g, reason := .abort, data := none, slot := none }))) ∧
        a = entries.length) ∧
      o = (allSixteen.filter (fun n => s.slotIs n .orphan)).length
        + (if s.transit.slotM.any (fun m => m.state == .orphan) then 1 else 0) ∧
      (∀ m, s.transit.slotM = some m → m.state = .queued → t.transit.slotM = some m) ∧
      ((∀ m, s.transit.slotM = some m → m.state ≠ .queued) → t.transit.slotM = none) ∧
      (∀ m, s.transit.slotM = some m → m.state = .issued → t.mem.inHand = none) ∧
      ((∀ m, s.transit.slotM = some m → m.state ≠ .issued) → t.mem.inHand = s.mem.inHand) ∧
      t.log.records.length = s.log.records.length ∧
      ∀ (i : Nat) (c : CaptureRecord), s.log.records[i]? = some c →
        ((∃ n b, s.slot n = some b ∧ b.state = .issued ∧ b.logSeq = some c.seq) →
          t.log.records[i]? = some (c.close .aborted (some .abort) none)) ∧
        (¬ (∃ n b, s.slot n = some b ∧ b.state = .issued ∧ b.logSeq = some c.seq) → t.log.records[i]? = some c)

/-- The listings and reports `TS`, `HL`, `WQ`, `LR` and `ST` change no state and answer from the state as it stands, with the
fields, widths and words of section 10.3, and with the texts of the refusals and of the notices; `LR` of a record that the log
does not hold is refused `?NF`. That a timer at zero is listed as 0000 until its expiry is taken is deduced
(notes/assumptions/23.md). -/
def Obligations.ReportsChangeNothing : Prop :=
  PrintedWords ∧ RefusalTexts ∧ NoticeTexts ∧ ∀ (s : State) (src : Source) (ops : List Token), Serves s src →
    ((reads ops readNone).isSome = true → ∃ t, exec (.ts src ops) s = .next t ∧
      t = { s with console := t.console, preload := t.preload } ∧
      Accepted s t src .ts ops [] (
        allSixteen.filterMap (fun n => (s.slot n).map (fun a => fields '-' (tsFields n a)))
          ++ (s.transit.slotM.map (fun m => fields '-' (tsFieldsM m))).toList
          ++ [fields '=' [hexPlain ((allSixteen.filter (fun n => (s.slot n).isSome)).length
            + (if s.transit.slotM.isSome then 1 else 0))]])) ∧
    ((reads ops readNone).isSome = true → (∀ n ∈ s.hold, s.slot n ≠ none) → ∃ t, exec (.hl src ops) s = .next t ∧
      t = { s with console := t.console, preload := t.preload } ∧
      Accepted s t src .hl ops [] (s.hold.filterMap (fun n => (s.slot n).map (fun a => fields '-' (hlFields n a)))
        ++ [fields '=' [hexPlain s.hold.length]])) ∧
    (∀ n : EntryNo, reads ops (readDigit 16) = some n ↔ OneDigit ops n.val) ∧
    (∀ q, reads ops readLr = some q ↔ LrSays ops q) ∧
    (∀ n, reads ops (readDigit 16) = some n → ∃ t, exec (.wq src ops) s = .next t ∧
      t = { s with console := t.console, preload := t.preload } ∧
      Accepted s t src .wq ops [] [fields '=' (wqFields n (s.entry n))]) ∧
    (∀ q i c, reads ops readLr = some q → s.log.records[i]? = some c → c.seq = q →
      (∀ (j : Nat) d, j < i → s.log.records[j]? = some d → d.seq ≠ q) → ∃ t, exec (.lr src ops) s = .next t ∧
      t = { s with console := t.console, preload := t.preload } ∧
      Accepted s t src .lr ops [] [fields '=' (lrFields c)]) ∧
    (∀ q, reads ops readLr = some q → (∀ c ∈ s.log.records, c.seq ≠ q) →
      ∃ t, exec (.lr src ops) s = .next t ∧ Refused s t src .lr ops .nf) ∧
    ((reads ops readNone).isSome = true → ∃ t, exec (.st src ops) s = .next t ∧
      t = { s with console := t.console, preload := t.preload } ∧
      Accepted s t src .st ops [] [fields '=' (stFields s)])

/-- `SQ n` reports record n, valid or not, in one line: its number, its valid flag, its address in eight digits, its size,
its value in two digits for each byte of its size, its use count in four digits; and it changes nothing. -/
def Obligations.SqReportsRecord : Prop :=
  (∀ (s : State) (src : Source) (ops : List Token) (n : RecordNo), Serves s src →
    reads ops (readDigit 8) = some n → ∃ t, exec (.sq src ops) s = .next t ∧
      t = { s with console := t.console, preload := t.preload } ∧
      Accepted s t src .sq ops [] [fields '=' [[hexChar n.val], [if (s.record n).valid then '1' else '0'],
        hexFixed 8 (s.record n).addr.toNat, [hexChar (sizeBytes (s.record n).size)],
        hexFixed (2 * sizeBytes (s.record n).size) (s.record n).value.toNat, hexFixed 4 (s.record n).uses.toNat]]) ∧
  (∀ (ops : List Token) (n : RecordNo), reads ops (readDigit 8) = some n ↔ OneDigit ops n.val) ∧
  fields '=' (substReport 5 (State.reset.record 5)) = "= 5 0 00000000 1 00 0000".toList

/-- `WS n` with operands that pass every check replaces every field of an entry that is not ARMED by what its keyword operands
say, or by their defaults; the entry becomes DORMANT with an arm source and ARMED without one, its counts fresh. An ARMED
entry refuses it `?BZ`. The operands that pass are those that Table 2-5 and R47 allow (that a number may carry leading zeros is
deduced: notes/assumptions/12.md). -/
def Obligations.WsSetsEntry : Prop :=
  (∀ (ops : List Token) (n : EntryNo) (e : WatchEntry), reads ops readWs = some (n, e) ↔
    ∃ o, readOperands ops = some o ∧ WsSays o n e ∧ WsFits n e) ∧
  ∀ (s : State) (src : Source) (ops : List Token) (n : EntryNo) (e : WatchEntry), Serves s src →
    reads ops readWs = some (n, e) →
    (∀ o, readOperands ops = some o → WsSays o n e) ∧ e.base ≤ e.limit ∧ (e.record.isSome = true ↔ e.action = some .subst) ∧
    e.action.isSome = true ∧ (e.cond.isSome = true → e.classes = ⟨false, false, true⟩) ∧
    e.armSource ≠ some (.entry n) ∧
    ((s.entry n).state ≠ .armed → ∃ t, exec (.ws src ops) s = .next t ∧
      t = { s with watch := s.watch.set n e, console := t.console, preload := t.preload } ∧
      Accepted s t src .ws ops [] [fields '=' [[hexChar n.val], entryStateWord e.state]]) ∧
    ((s.entry n).state = .armed → ∃ t, exec (.ws src ops) s = .next t ∧ Refused s t src .ws ops .bz)

/-- `WR` makes the new reload pending in an ARMED entry, sets reload and remaining count of a DORMANT or SPENT one, and is
refused by an OFF one. `WA` arms a DORMANT entry as it stands and a SPENT one with its count reloaded; `WD` takes an ARMED
entry to DORMANT; `WX` turns any entry OFF; in any other state they are refused `?BZ`. The entry is the one digit of the line,
and the new reload the number of `R=` (that it may carry leading zeros is deduced: notes/assumptions/12.md). -/
def Obligations.EntryVerbs : Prop :=
  ∀ (s : State) (src : Source) (ops : List Token) (n : EntryNo), Serves s src →
    (∀ v, reads ops readWr = some (n, v) ↔ WrSays ops n v) ∧
    (reads ops (readDigit 16) = some n ↔ OneDigit ops n.val) ∧
    (∀ v, reads ops readWr = some (n, v) →
      ((s.entry n).state = .off → ∃ t, exec (.wr src ops) s = .next t ∧ Refused s t src .wr ops .bz) ∧
      ((s.entry n).state = .armed → ∃ t, exec (.wr src ops) s = .next t ∧
        t = { s with
          watch := s.watch.set n { s.entry n with pendingReload := some v }
          console := t.console, preload := t.preload } ∧
        Accepted s t src .wr ops [] [fields '=' [[hexChar n.val], "ARMED".toList]]) ∧
      ((s.entry n).state = .dormant ∨ (s.entry n).state = .spent → ∃ t, exec (.wr src ops) s = .next t ∧
        t = { s with
          watch := s.watch.set n { s.entry n with reload := v, remaining := v, pendingReload := none }
          console := t.console, preload := t.preload } ∧
        Accepted s t src .wr ops [] [fields '=' [[hexChar n.val], entryStateWord (s.entry n).state]])) ∧
    (reads ops (readDigit 16) = some n →
      ((s.entry n).state = .dormant → ∃ t, exec (.wa src ops) s = .next t ∧
        t = { s with
          watch := s.watch.set n { s.entry n with state := .armed }, console := t.console, preload := t.preload } ∧
        Accepted s t src .wa ops [] [fields '=' [[hexChar n.val], "ARMED".toList]]) ∧
      ((s.entry n).state = .spent → ∃ t, exec (.wa src ops) s = .next t ∧
        t = { s with
          watch := s.watch.set n { s.entry n with
            state := .armed
            reload := (s.entry n).pendingReload.getD (s.entry n).reload
            remaining := (s.entry n).pendingReload.getD (s.entry n).reload
            pendingReload := none }
          console := t.console, preload := t.preload } ∧
        Accepted s t src .wa ops [] [fields '=' [[hexChar n.val], "ARMED".toList]]) ∧
      ((s.entry n).state = .off ∨ (s.entry n).state = .armed →
        ∃ t, exec (.wa src ops) s = .next t ∧ Refused s t src .wa ops .bz) ∧
      ((s.entry n).state = .armed → ∃ t, exec (.wd src ops) s = .next t ∧
        t = { s with
          watch := s.watch.set n { s.entry n with state := .dormant }, console := t.console, preload := t.preload } ∧
        Accepted s t src .wd ops [] [fields '=' [[hexChar n.val], "DORMANT".toList]]) ∧
      ((s.entry n).state ≠ .armed → ∃ t, exec (.wd src ops) s = .next t ∧ Refused s t src .wd ops .bz) ∧
      ∃ t, exec (.wx src ops) s = .next t ∧
        t = { s with
          watch := s.watch.set n WatchEntry.offValue, console := t.console, preload := t.preload } ∧
        Accepted s t src .wx ops [] [fields '=' [[hexChar n.val], "OFF".toList]])

/-- `HR s`: refused `?NH`, `?BZ` or `?OB` in this order; otherwise the slot joins the tail of the forward queue, one order
clearance follows, and the answer counts the slots that it let go. `HR` alone takes the oldest WATCH or FREEZE slot and is
refused `?EM` without one. -/
def Obligations.HrReleases : Prop :=
  ∀ (s : State) (src : Source) (ops : List Token), Serves s src →
    (reads ops readOptDigit = some none ↔ ops = []) ∧
    (∀ n, reads ops readOptDigit = some (some n) ↔ OneDigit ops n.val) ∧
    (∀ n, reads ops readOptDigit = some (some n) →
      ((∀ a, s.slot n = some a → a.state ≠ .held) →
        ∃ t, exec (.hr src ops) s = .next t ∧ Refused s t src .hr ops .nh) ∧
      (∀ a, s.slot n = some a → a.state = .held → a.holdReason = some .order →
        ∃ t, exec (.hr src ops) s = .next t ∧ Refused s t src .hr ops .bz) ∧
      (∀ a, s.slot n = some a → a.state = .held → a.holdReason ≠ some .order → (∃ m ∈ s.ahead n, Blocks s m a) →
        ∃ t, exec (.hr src ops) s = .next t ∧ Refused s t src .hr ops .ob)) ∧
    (∀ n a, s.slot n = some a →
      ((reads ops readOptDigit = some (some n) ∧ a.state = .held ∧ a.holdReason ≠ some .order ∧
          ∀ m ∈ s.ahead n, ¬ Blocks s m a) ∨
        (reads ops readOptDigit = some none ∧ n ∈ s.hold ∧
          (a.holdReason = some .watch ∨ a.holdReason = some .freeze) ∧
          ∀ m ∈ s.ahead n, ∀ b, s.slot m = some b → b.holdReason ≠ some .watch ∧ b.holdReason ≠ some .freeze)) →
      ∃ (t u : State), exec (.hr src ops) s = .next t ∧
        u = { s with
          hold := s.hold.filter (fun m => m != n)
          transit := { s.transit with slots := s.transit.slots.set n (some (left a .queued)) }
          far := { s.far with forward := s.far.forward ++ [n] } } ∧
        t = { u.clearance.1 with console := t.console, preload := t.preload } ∧
        Accepted s t src .hr ops [] [fields '=' [[hexChar n.val], hexPlain u.clearance.2]]) ∧
    (reads ops readOptDigit = some none →
      (∀ n ∈ s.hold, ∀ a, s.slot n = some a → a.holdReason ≠ some .watch ∧ a.holdReason ≠ some .freeze) →
      ∃ t, exec (.hr src ops) s = .next t ∧ Refused s t src .hr ops .em)

/-- `HA` and `HF` settle a held access of any reason, blocked or not: `HA` answers a FETCH or LOAD with the data of `V=`, and
absorbs a STORE when `V=` is absent; `HF` answers DENIED. The slot becomes ANSWERING, its record is closed, one order
clearance follows. A slot that is not HELD is refused `?NH`, a data operand that does not fit the class `?BO` (that a `V=` which is no
number is checked after the slot is deduced: notes/assumptions/13.md). -/
def Obligations.HaHfSettle : Prop :=
  ∀ (s : State) (src : Source) (ops : List Token) (n : SlotNo), Serves s src →
    (∀ v, reads ops readHa = some (n, v) ↔ HaSays ops n v) ∧
    (reads ops (readDigit 16) = some n ↔ OneDigit ops n.val) ∧
    (∀ v a g, reads ops readHa = some (n, v) → s.slot n = some a → a.state = .held → a.tag = some g →
      (∀ d, ((a.cls = .store ∧ v = none ∧ d = none) ∨
          (a.cls ≠ .store ∧ ∃ w x, v = some w ∧ hexNum w = some x ∧ x < 2 ^ (8 * sizeBytes a.size) ∧
            d = some (BitVec.ofNat 64 x))) →
        ∃ (t u : State), exec (.ha src ops) s = .next t ∧
          u = { s with
            hold := s.hold.filter (fun m => m != n)
            transit := { s.transit with slots := s.transit.slots.set n (some (answered a)) }
            near := { s.near with
              responses := s.near.responses ++ [{ tag := g, reason := .ok, data := d, slot := some n }] }
            log := logClosed s.log a.logSeq .answered .ok d } ∧
          t = { u.clearance.1 with console := t.console, preload := t.preload } ∧
          Accepted s t src .ha ops [] [fields '=' [[hexChar n.val], hexPlain u.clearance.2]]) ∧
      (((a.cls = .store ∧ v ≠ none) ∨ (a.cls ≠ .store ∧ ∀ w x, v = some w → hexNum w = some x →
          2 ^ (8 * sizeBytes a.size) ≤ x)) →
        ∃ t, exec (.ha src ops) s = .next t ∧ Refused s t src .ha ops .bo)) ∧
    (∀ v, reads ops readHa = some (n, v) → (∀ a, s.slot n = some a → a.state ≠ .held) →
      ∃ t, exec (.ha src ops) s = .next t ∧ Refused s t src .ha ops .nh) ∧
    (reads ops (readDigit 16) = some n →
      (∀ a g, s.slot n = some a → a.state = .held → a.tag = some g →
        ∃ (t u : State), exec (.hf src ops) s = .next t ∧
          u = { s with
            hold := s.hold.filter (fun m => m != n)
            transit := { s.transit with slots := s.transit.slots.set n (some (answered a)) }
            near := { s.near with
              responses := s.near.responses ++ [{ tag := g, reason := .denied, data := none, slot := some n }] }
            log := logClosed s.log a.logSeq .failed .denied none } ∧
          t = { u.clearance.1 with console := t.console, preload := t.preload } ∧
          Accepted s t src .hf ops [] [fields '=' [[hexChar n.val], hexPlain u.clearance.2]]) ∧
      ((∀ a, s.slot n = some a → a.state ≠ .held) →
        ∃ t, exec (.hf src ops) s = .next t ∧ Refused s t src .hf ops .nh))

/-- `RA` leaves the hold queue empty: its walk releases the WATCH and FREEZE slots without a blocker, in queue order, and its
clearance lets the others go by their pending action, in queue order behind them; no other slot moves, no notice is raised,
and the answer counts the slots released and the slots cleared. Each substitution record changes by the hits of the slots
with pending action SUBSTITUTE, in queue order, and each capture record by the close or the mark of such a slot, so that every
OPEN record but those of hits stays OPEN. -/
def Obligations.RaEmptiesHoldQueue : Prop :=
  ∀ (s : State) (src : Source) (ops : List Token), Serves s src → (reads ops readNone).isSome = true →
    SlotsOk s → TransitOk s →
    ∃ (t : State) (rel : List SlotNo), exec (.ra src ops) s = .next t ∧ t.hold = [] ∧
      Accepted s t src .ra ops [] [fields '=' [hexPlain rel.length, hexPlain (s.hold.length - rel.length)]] ∧
      Walked s t rel ∧
      (∀ n a, n ∈ s.hold → s.slot n = some a → Departs s t n a) ∧
      (∀ n, n ∉ s.hold → t.slot n = s.slot n) ∧
      (∀ k, HitsMade s t s.hold k (t.record k)) ∧
      (LogOk s → LogFollows s t) ∧
      ((∀ n a, n ∈ s.hold → s.slot n = some a → a.pendAction ≠ some .substitute) →
        t.subst = s.subst ∧ t.log = s.log ∧ t.near = s.near) ∧
      t = { s with
        transit := { s.transit with slots := t.transit.slots }
        near := { s.near with responses := t.near.responses }
        far := { s.far with forward := t.far.forward }
        hold := []
        subst := t.subst
        log := { s.log with records := t.log.records }
        console := t.console
        preload := t.preload }

/-- `SS n` gives record n the address of `A=`, the size of `Z=` and the value of `V=`, valid and with its use count at 0;
`SX n` makes it invalid and keeps its other fields. Each is answered with the record's number. The operands that pass are
those that R95 and R97 allow (that a number may carry leading zeros is deduced: notes/assumptions/12.md). -/
def Obligations.RecordVerbs : Prop :=
  (∀ (ops : List Token) (n : RecordNo) (r : SubstRecord), reads ops readSs = some (n, r) ↔
    ∃ o, readOperands ops = some o ∧ SsSays o n r) ∧
  ∀ (s : State) (src : Source) (ops : List Token) (n : RecordNo), Serves s src →
    (∀ r, reads ops readSs = some (n, r) →
      (∀ o, readOperands ops = some o → SsSays o n r) ∧
      ∃ t, exec (.ss src ops) s = .next t ∧
        t = { s with subst := s.subst.set n r, console := t.console, preload := t.preload } ∧
        Accepted s t src .ss ops [] [fields '=' [[hexChar n.val]]]) ∧
    (reads ops (readDigit 8) = some n ↔ OneDigit ops n.val) ∧
    (reads ops (readDigit 8) = some n → ∃ t, exec (.sx src ops) s = .next t ∧
      t = { s with
        subst := s.subst.set n { s.record n with valid := false }, console := t.console, preload := t.preload } ∧
      Accepted s t src .sx ops [] [fields '=' [[hexChar n.val]]])

/-- `LN` reports and removes the oldest record when it is CLOSED, and is refused `?EM` or `?OP` otherwise; `LC` removes every
CLOSED record, keeps the OPEN ones in order, zeroes the lost count, and answers how many left. `LM W` and `LM S` set the log
mode and `LM` alone leaves it; each is answered with the mode now in force. -/
def Obligations.LogVerbs : Prop :=
  (∀ (s : State) (src : Source) (ops : List Token), Serves s src → (reads ops readNone).isSome = true →
    (s.log.records = [] → ∃ t, exec (.ln src ops) s = .next t ∧ Refused s t src .ln ops .em) ∧
    (∀ c rest m, s.log.records = c :: rest → c.status = .opened m →
      ∃ t, exec (.ln src ops) s = .next t ∧ Refused s t src .ln ops .op) ∧
    (∀ c rest o r d, s.log.records = c :: rest → c.status = .closed o r d → ∃ t, exec (.ln src ops) s = .next t ∧
      t = { s with log := { s.log with records := rest }, console := t.console, preload := t.preload } ∧
      Accepted s t src .ln ops [] [fields '=' (lrFields c)]) ∧
    ∃ (t : State) (kept : List CaptureRecord), exec (.lc src ops) s = .next t ∧
      kept.Sublist s.log.records ∧
      (∀ c, c ∈ kept ↔ c ∈ s.log.records ∧ ∃ m, c.status = .opened m) ∧
      kept.length = (s.log.records.filter CaptureRecord.isOpen).length ∧
      t = { s with log := { s.log with records := kept, lost := 0 }, console := t.console, preload := t.preload } ∧
      Accepted s t src .lc ops [] [fields '=' [hexPlain (s.log.records.length - kept.length)]]) ∧
  (∀ (ops : List Token) (m : Option LogMode), reads ops readLm = some m ↔ LmSays ops m) ∧
  ∀ (s : State) (src : Source) (ops : List Token) (m : Option LogMode), Serves s src → reads ops readLm = some m →
    ∃ t, exec (.lm src ops) s = .next t ∧
      t = { s with
        log := { s.log with mode := m.getD s.log.mode }, console := t.console, preload := t.preload } ∧
      Accepted s t src .lm ops [] [fields '=' [match m.getD s.log.mode with | .wrap => ['W'] | .stop => ['S']]]

/-- `AK` alone removes every number from the alert set, which negates ALERT, and answers how many there were, `= 0` for an
empty set. `AK n` removes a member n and no other, and is refused `?NF` when n is no member. -/
def Obligations.AkAcknowledges : Prop :=
  (∀ (s : State) (src : Source) (ops : List Token), Serves s src → reads ops readOptDigit = some none →
    ∃ t, exec (.ak src ops) s = .next t ∧
      t = { s with alerts := [], console := t.console, preload := t.preload } ∧ t.alertLine = false ∧
      Accepted s t src .ak ops [] [fields '=' [hexPlain s.alerts.length]] ∧
      (s.alerts = [] → fields '=' [hexPlain s.alerts.length] = ['=', ' ', '0'])) ∧
  (∀ ops : List Token, (reads ops readOptDigit = some none ↔ ops = []) ∧
    ∀ n, reads ops readOptDigit = some (some n) ↔ OneDigit ops n.val) ∧
  ∀ (s : State) (src : Source) (ops : List Token) (n : EntryNo), Serves s src →
    reads ops readOptDigit = some (some n) →
    (n ∈ s.alerts → ∃ t, exec (.ak src ops) s = .next t ∧
      t = { s with
        alerts := s.alerts.filter (fun e => e != n), console := t.console, preload := t.preload } ∧
      Accepted s t src .ak ops [] [fields '=' [[hexChar n.val]]]) ∧
    (n ∉ s.alerts → ∃ t, exec (.ak src ops) s = .next t ∧ Refused s t src .ak ops .nf)


/-- `GO` and `BY`: from BYPASS or WATCH the state becomes the one asked for, or stays with the answer `=`; in FROZEN only the
return state changes; a preload line leaves GATED for the state asked for, is counted, and ends preload with `^PL OK`. `FZ`
freezes from BYPASS or WATCH with the state left as return state and raises `^FZ`, and answers `=` in FROZEN; `TH` thaws to
the return state and raises `^TH`, and is refused `?BZ` in another state; both are refused `?BZ` in GATED. -/
def Obligations.StateVerbs : Prop :=
  ∀ (s : State) (ops : List Token), (reads ops readNone).isSome = true →
    (∀ (v : Verb) (ask other : OpState) (r : ReturnState) (w : Text),
      ((v = .go ∧ ask = .watch ∧ other = .bypass ∧ r = .watch ∧ w = "WATCH".toList) ∨
        (v = .byp ∧ ask = .bypass ∧ other = .watch ∧ r = .bypass ∧ w = "BYPASS".toList)) →
      (Ready s → s.ctrl.op = other → ∃ t, exec (verbRow v .console ops) s = .next t ∧
        t = { s with ctrl := { s.ctrl with op := ask, ret := none }, console := t.console } ∧
        Answered s t (lineOf v ops) [] [fields '=' [w]]) ∧
      (Ready s → s.ctrl.op = ask → ∃ t, exec (verbRow v .console ops) s = .next t ∧
        t = { s with console := t.console } ∧ Answered s t (lineOf v ops) [] [['=']]) ∧
      (Ready s → s.ctrl.op = .frozen → ∃ t, exec (verbRow v .console ops) s = .next t ∧
        t = { s with ctrl := { s.ctrl with ret := some r }, console := t.console } ∧
        Answered s t (lineOf v ops) [] [fields '=' ["FROZEN".toList, w]]) ∧
      (Serves s .preload → exec (verbRow v .preload ops) s = .next { s with
        ctrl := { s.ctrl with op := ask, ret := none }
        preload := { s.preload with lines := s.preload.lines + 1 }
        console := consoleAfter s [.plOk (s.preload.lines + 1)] })) ∧
    (∀ (o : OpState) (r : ReturnState) (w : Text),
      ((o = .bypass ∧ r = .bypass ∧ w = "BYPASS".toList) ∨ (o = .watch ∧ r = .watch ∧ w = "WATCH".toList)) →
      (Ready s → s.ctrl.op = o → ∃ t, exec (.fz .console ops) s = .next t ∧
        t = { s with ctrl := { s.ctrl with op := .frozen, ret := some r }, console := t.console } ∧
        Answered s t (lineOf .fz ops) [.fz] [fields '=' ["FROZEN".toList, w]]) ∧
      (Ready s → s.ctrl.op = .frozen → s.ctrl.ret = some r → ∃ t, exec (.th .console ops) s = .next t ∧
        t = { s with ctrl := { s.ctrl with op := o, ret := none }, console := t.console } ∧
        Answered s t (lineOf .th ops) [.th] [fields '=' [w]])) ∧
    (Ready s → s.ctrl.op = .frozen → ∃ t, exec (.fz .console ops) s = .next t ∧
      t = { s with console := t.console } ∧ Answered s t (lineOf .fz ops) [] [['=']]) ∧
    (Ready s → s.ctrl.op ≠ .frozen → ∃ t, exec (.th .console ops) s = .next t ∧ Refused s t .console .th ops .bz) ∧
    (Serves s .preload →
      exec (.fz .preload ops) s = .next (preloadErrorEnd s .bz) ∧
      exec (.th .preload ops) s = .next (preloadErrorEnd s .bz))

/-- `CL` lets every held access go by the walk and the clearance of `RA`, without its log sequence number, turns every entry
OFF, invalidates every record and keeps its other fields as the clearance leaves them, empties the log and the alert set, and
leaves the part in BYPASS, or in GATED from a preload line; its answer counts the slots released and the slots cleared; it
keeps everything else and raises no notice. -/
def Obligations.ClClears : Prop :=
  ∀ (s : State) (src : Source) (ops : List Token), Serves s src → (reads ops readNone).isSome = true →
    SlotsOk s → TransitOk s →
    ∃ (t : State) (rel : List SlotNo), exec (.cl src ops) s = .next t ∧
      Accepted s t src .cl ops [] [fields '=' [hexPlain rel.length, hexPlain (s.hold.length - rel.length)]] ∧
      Walked s t rel ∧
      (∀ n a, n ∈ s.hold → s.slot n = some a → Departs s t n { a with logSeq := none }) ∧
      (∀ n, n ∉ s.hold → t.slot n = (s.slot n).map (fun a => { a with logSeq := none })) ∧
      (∀ n, t.slotSeq n = none) ∧
      (∀ k, (t.record k).valid = false ∧ (t.record k).addr = (s.record k).addr ∧ (t.record k).size = (s.record k).size) ∧
      ((∀ n a, n ∈ s.hold → s.slot n = some a → a.pendAction ≠ some .substitute) →
        ∀ k, t.record k = { s.record k with valid := false }) ∧
      (∀ k, ∃ r, HitsMade s t s.hold k r ∧ t.record k = { r with valid := false }) ∧
      t = { s with
        transit := { s.transit with slots := t.transit.slots }
        near := { s.near with responses := t.near.responses }
        far := { s.far with forward := t.far.forward }
        watch := Vector.replicate 16 WatchEntry.offValue
        hold := []
        subst := t.subst
        log := { records := [], counter := 0, lost := 0, mode := s.log.mode }
        alerts := []
        ctrl := if s.ctrl.op = .gated then s.ctrl else { s.ctrl with op := .bypass, ret := none }
        console := t.console
        preload := t.preload }

/-- `SP` gives every parameter that it names the value written and leaves the others; it answers all seven. When it
changes D or Y the console takes the line settings into use at the end of its answer; from a preload line at once when
nothing is being sent, and otherwise at the end of the line being sent. The operands that pass are those that R142 allows. -/
def Obligations.SpSetsParameters : Prop :=
  (∀ (ops : List Token) (p q : Params), reads ops (readSp p) = some q ↔ ∃ o, readOperands ops = some o ∧ SpSays o p q) ∧
  ∀ (s : State) (ops : List Token) (p : Params), reads ops (readSp s.ctrl.params) = some p →
    (∀ o, readOperands ops = some o → SpSays o s.ctrl.params p) ∧
    (Ready s → ∃ t, exec (.sp .console ops) s = .next t ∧
      t = { s with ctrl := { s.ctrl with params := p }, console := t.console } ∧
      Answered s t (lineOf .sp ops) [] [fields '=' (spFields p)]
        (decide (¬ (p.baud = s.ctrl.params.baud ∧ p.parity = s.ctrl.params.parity)))) ∧
    (Serves s .preload → ∃ t, exec (.sp .preload ops) s = .next t ∧
      t = { s with
        ctrl := { s.ctrl with params := p }
        preload := { s.preload with lines := s.preload.lines + 1 }
        console := t.console } ∧
      (p.baud = s.ctrl.params.baud → p.parity = s.ctrl.params.parity → t.console = settle s.console) ∧
      (¬ (p.baud = s.ctrl.params.baud ∧ p.parity = s.ctrl.params.parity) → s.console.tx = .idle → t.console =
        settle { s.console with baudInUse := p.baud, parityInUse := p.parity }) ∧
      (¬ (p.baud = s.ctrl.params.baud ∧ p.parity = s.ctrl.params.parity) → s.console.tx ≠ .idle → t.console =
        { s.console with settingsDue := true }))

/-- `MA` sets the memory cursor to the address of `A=` and the size of `Z=`, each the cursor's own where it is omitted, when the
one is a multiple of the other, and answers them, whatever the state of slot M. The operands that pass are those that R179
allows. -/
def Obligations.MaSetsCursor : Prop :=
  (∀ (ops : List Token) (m : Mem) (a : Word) (z : Size), reads ops (readMa m) = some (a, z) ↔
    ∃ o, readOperands ops = some o ∧ MaSays o m a z) ∧
  ∀ (s : State) (src : Source) (ops : List Token) (a : Word) (z : Size), Serves s src →
    reads ops (readMa s.mem) = some (a, z) →
    (∀ o, readOperands ops = some o → o.pos = [] ∧ (∀ x ∈ o.kws, x.1 ∈ ['A', 'Z']) ∧ PlaceSays o s.mem a z) ∧
    (∃ t, exec (.ma src ops) s = .next t ∧
      t = { s with
        mem := { s.mem with cursorAddr := a, cursorSize := z }, console := t.console, preload := t.preload } ∧
      Accepted s t src .ma ops [] [fields '=' [hexFixed 8 a.toNat, [hexChar (sizeBytes z)]]]) ∧
    (ops = [] → a = s.mem.cursorAddr ∧ z = s.mem.cursorSize)

/-- `MR` and `MW` begin an access when slot M is FREE: slot M becomes QUEUED with the address of `A=` and the size of `Z=`, each
the cursor's own where it is omitted, and, for a write, the value of `V=`, which fits the size; the access in hand names its
party; no response is produced, and a console line stays IN SERVICE. With slot M not FREE they are refused `?BZ`. The operands
that pass are those that R180 allows. -/
def Obligations.MrMwBeginAccess : Prop :=
  (∀ (ops : List Token) (m : Mem) (a : Word) (z : Size),
    (reads ops (readMa m) = some (a, z) ↔ ∃ o, readOperands ops = some o ∧ MaSays o m a z) ∧
    ∀ d, reads ops (readMw m) = some (a, z, d) ↔ ∃ o, readOperands ops = some o ∧ MwSays o m a z d) ∧
  ∀ (s : State) (src : Source) (ops : List Token) (v : Verb) (h : InHand) (c : AccClass), Serves s src →
    h.party = (match src with | .console => .console | .preload => .preload) →
    ((v = .mr ∧ h.command = .mr ∧ c = .load ∧ h.value = none ∧ reads ops (readMa s.mem) = some (h.addr, h.size)) ∨
      (v = .mw ∧ h.command = .mw ∧ c = .store ∧ ∃ d, h.value = some d ∧
        reads ops (readMw s.mem) = some (h.addr, h.size, d))) →
    (∀ o, readOperands ops = some o → o.pos = [] ∧ PlaceSays o s.mem h.addr h.size ∧
      (v = .mr → ∀ x ∈ o.kws, x.1 ∈ ['A', 'Z']) ∧
      (v = .mw → (∀ x ∈ o.kws, x.1 ∈ ['A', 'Z', 'V']) ∧ Says o 'V' False (fun w => ∃ d, h.value = some d ∧
        hexNum w = some d.toNat ∧ d.toNat < 2 ^ (8 * sizeBytes h.size)))) ∧
    (s.transit.slotM = none → exec (verbRow v src ops) s = .next { s with
      transit := { s.transit with
        slotM := some
          { state := .queued, cls := c, addr := h.addr, size := h.size, data := h.value, farTimer := none } }
      mem := { s.mem with inHand := some h }
      console := match src with
        | .console =>
          settle { s.console with
            inService := some { line := lineOf v ops, stage := .executing, settings := false } }
        | .preload => settle s.console }) ∧
    (s.transit.slotM ≠ none → ∃ t, exec (verbRow v src ops) s = .next t ∧ Refused s t src v ops .bz)

/-- Every verb: operands that break the general grammar in one of the cases of R166, or that do not pass the verb's own operand
checks, are refused `?BO`, and from a preload line they end preload with that code, whatever else the state holds. Operands
that break the grammar in none of its cases are read as they are written, with letters in upper case; and a verb without
operands takes none. -/
def Obligations.BadOperandsRefused : Prop :=
  (∀ (v : Verb) (s : State) (src : Source) (ops : List Token), Serves s src →
    (BreaksGrammar ops ∨ accepts v s ops = false) →
    ∃ t, exec (verbRow v src ops) s = .next t ∧ Refused s t src v ops .bo) ∧
  (∀ ops : List Token, (∀ t ∈ ops, t ≠ []) → ¬ BreaksGrammar ops → readOperands ops = some (written ops)) ∧
  ∀ ops : List Token, (reads ops readNone).isSome = true ↔ ops = []

/-- Every verb from the console, when it is not executed: in GATED it is answered `?PL`; after an overrun `?OV`, and the flag
is cleared; with a line IN SERVICE it waits in the other slot, taking the overrun flag with it; with no slot FREE it is
dropped and sets the flag. A preload row while preload does not read is no event. Nothing outside the console port changes
(that a verb's row is a whole line is the model's choice, notes/assumptions/6.md and 7.md). -/
def Obligations.LinesNotExecuted : Prop :=
  ∀ (v : Verb) (s : State) (ops : List Token), s.running →
    (s.ctrl.op = .gated → s.console.inService = none → sendingResponse s.console = false → ∃ t,
      exec (verbRow v .console ops) s = .next t ∧ t = { s with console := t.console } ∧
      t.replyLines = some [['?', 'P', 'L']] ∧ t.console.overrun = false) ∧
    (s.ctrl.op ≠ .gated → s.console.inService = none → sendingResponse s.console = false →
      s.console.overrun = true → ∃ t,
      exec (verbRow v .console ops) s = .next t ∧ t = { s with console := t.console } ∧
      t.replyLines = some [['?', 'O', 'V']] ∧ t.console.overrun = false) ∧
    (∀ w, s.console.inService = some w → s.console.waiting = none → s.console.assembling = none →
      exec (verbRow v .console ops) s = .next { s with console := settle { s.console with
        waiting := some { text := lineText v ops, mark := none, overrun := s.console.overrun }, overrun := false } }) ∧
    (∀ w, s.console.inService = some w → (s.console.waiting ≠ none ∨ s.console.assembling ≠ none) →
      exec (verbRow v .console ops) s = .next { s with console := settle { s.console with overrun := true } }) ∧
    ((s.ctrl.op ≠ .gated ∨ s.preloadWaits = true) →
      exec (verbRow v .preload ops) s = .next { s with console := settle s.console })

/-! ## The console line and the preload stream -/

/-- A character taken into a line being assembled: a printable one is stored up to 72 characters and never after a mark LL; a
backspace removes the last one; ESC discards the line; CR completes it; any other byte marks it CH, a bad frame FR, and the
first mark stays. -/
def Obligations.CharacterInLine : Prop :=
  ∀ (s : State) (f : RxFrame) (a : Assembly), s.running → s.console.assembling = some a →
    (badFrame (f.begunWith.getD s.console.parityInUse) f = true →
      exec (.character f) s = .next { s with console := settle { s.console with
        assembling := some { a with mark := some (a.mark.getD .fr) } } }) ∧
    (badFrame (f.begunWith.getD s.console.parityInUse) f = false →
      (0x20 ≤ f.data.toNat → f.data.toNat ≤ 0x7E →
        (a.text.length < 72 ∧ a.mark ≠ some .ll →
          exec (.character f) s = .next { s with console := settle { s.console with
            assembling := some { a with text := a.text ++ [Char.ofNat f.data.toNat] } } }) ∧
        (¬ (a.text.length < 72 ∧ a.mark ≠ some .ll) →
          exec (.character f) s = .next { s with console := settle { s.console with
            assembling := some { a with mark := some (a.mark.getD .ll) } } })) ∧
      (f.data = 0x08 → exec (.character f) s = .next { s with console := settle { s.console with
        assembling := some { a with text := a.text.dropLast } } }) ∧
      (f.data = 0x1B → exec (.character f) s = .next { s with console := settle { s.console with
        assembling := none } }) ∧
      (f.data = 0x0A → exec (.character f) s = .next { s with console := settle s.console }) ∧
      (f.data.toNat < 0x20 ∨ 0x7F ≤ f.data.toNat → f.data ≠ 0x08 → f.data ≠ 0x0A → f.data ≠ 0x0D → f.data ≠ 0x1B →
        exec (.character f) s = .next { s with console := settle { s.console with
          assembling := some { a with mark := some (a.mark.getD .ch) } } }) ∧
      (f.data = 0x0D → ∃ t, exec (.character f) s = .next t ∧ t.console.assembling = none ∧
        t.console.overrun = false ∧
        (∀ w, s.console.inService = some w →
          t = { s with console := settle { s.console with
            assembling := none
            overrun := false
            waiting := some { text := a.text, mark := a.mark, overrun := s.console.overrun } } }) ∧
        (s.console.inService = none → ∃ w, t.console.inService = some w ∧
          w.line = { text := a.text, mark := a.mark, overrun := s.console.overrun })))

/-- A character with no line being assembled: LF, and a backspace or ESC that would begin a line, do nothing; another good
or bad character begins a line in a FREE slot, a bad one with the mark FR, and a CR completes an empty line at once, which
waits, or is answered `?PL` in GATED, `?OV` after an overrun and `=` otherwise; with both slots taken every character but LF
is dropped and sets the overrun flag. A frame is bad when its stop bit is low, or when its data and parity bits do not have
the even or odd number of ones of the parity; under parity none there is no parity error. That a CHARACTER names the parity
at its start bit is the model's choice (notes/assumptions/15.md). -/
def Obligations.CharacterBeginsLine : Prop :=
  (∀ (p : Parity) (f : RxFrame), badFrame p f = true ↔
    f.stopHigh = false ∨
    (p = .even ∧ (onesOf f.data + (if f.parityBit then 1 else 0)) % 2 = 1) ∨
    (p = .odd ∧ (onesOf f.data + (if f.parityBit then 1 else 0)) % 2 = 0)) ∧
  ∀ (s : State) (f : RxFrame), s.running → s.console.assembling = none →
    (badFrame (f.begunWith.getD s.console.parityInUse) f = true →
      (s.console.waiting.isSome = true → s.console.inService.isSome = true →
        exec (.character f) s = .next { s with console := settle { s.console with overrun := true } }) ∧
      ((s.console.waiting = none ∨ s.console.inService = none) →
        exec (.character f) s = .next { s with console := settle { s.console with
          assembling := some { text := [], mark := some .fr } } })) ∧
    (badFrame (f.begunWith.getD s.console.parityInUse) f = false →
      (f.data = 0x0A → exec (.character f) s = .next { s with console := settle s.console }) ∧
      (f.data ≠ 0x0A → s.console.waiting.isSome = true → s.console.inService.isSome = true →
        exec (.character f) s = .next { s with console := settle { s.console with overrun := true } }) ∧
      ((s.console.waiting = none ∨ s.console.inService = none) → (f.data = 0x08 ∨ f.data = 0x1B) →
        exec (.character f) s = .next { s with console := settle s.console }) ∧
      ((s.console.waiting = none ∨ s.console.inService = none) → 0x20 ≤ f.data.toNat → f.data.toNat ≤ 0x7E →
        exec (.character f) s = .next { s with console := settle { s.console with
          assembling := some { text := [Char.ofNat f.data.toNat], mark := none } } }) ∧
      ((s.console.waiting = none ∨ s.console.inService = none) →
        (f.data.toNat < 0x20 ∨ 0x7F ≤ f.data.toNat) → f.data ≠ 0x08 → f.data ≠ 0x0A → f.data ≠ 0x0D → f.data ≠ 0x1B →
        exec (.character f) s = .next { s with console := settle { s.console with
          assembling := some { text := [], mark := some .ch } } }) ∧
      (∀ v, f.data = 0x0D → s.console.inService = some v → s.console.waiting = none →
        exec (.character f) s = .next { s with console := settle { s.console with
          waiting := some { text := [], mark := none, overrun := s.console.overrun }, overrun := false } }) ∧
      (f.data = 0x0D → s.console.inService = none → sendingResponse s.console = false →
        ∃ t, exec (.character f) s = .next t ∧ t = { s with console := t.console } ∧
          Answered { s with console := { s.console with overrun := false } } t
            { text := [], mark := none, overrun := s.console.overrun } []
            [if s.ctrl.op = .gated then ['?', 'P', 'L'] else if s.console.overrun then ['?', 'O', 'V'] else ['=']]))

/-- The tests of a line that enters service at its CR, in order: `?PL` in GATED, `?OV` after an overrun, the code of its mark,
`=` for a line of spaces, `?UV` for a first token that is no verb, and for a verb the answer that the verb's row gives. -/
def Obligations.LineTests : Prop :=
  ∀ (s : State) (f : RxFrame) (a : Assembly), s.running → s.console.assembling = some a →
    badFrame (f.begunWith.getD s.console.parityInUse) f = false → f.data = 0x0D → s.console.inService = none →
    sendingResponse s.console = false →
    (s.ctrl.op = .gated → ∃ t, exec (.character f) s = .next t ∧ t = { s with console := t.console } ∧
      t.replyLines = some [['?', 'P', 'L']]) ∧
    (s.ctrl.op ≠ .gated → s.console.overrun = true → ∃ t, exec (.character f) s = .next t ∧
      t = { s with console := t.console } ∧ t.replyLines = some [['?', 'O', 'V']]) ∧
    (∀ m, s.ctrl.op ≠ .gated → s.console.overrun = false → a.mark = some m →
      ∃ t, exec (.character f) s = .next t ∧ t = { s with console := t.console } ∧
        t.replyLines = some [match m with
          | .ch => ['?', 'C', 'H']
          | .ll => ['?', 'L', 'L']
          | .fr => ['?', 'F', 'R']]) ∧
    (s.ctrl.op ≠ .gated → s.console.overrun = false → a.mark = none → (∀ c ∈ a.text, c = ' ') →
      ∃ t, exec (.character f) s = .next t ∧ t = { s with console := t.console } ∧ t.replyLines = some [['=']]) ∧
    (∀ w ws, s.ctrl.op ≠ .gated → s.console.overrun = false → a.mark = none → tokens a.text = w :: ws →
      (∀ v : Verb, w.map upper ≠ verbText v) →
      ∃ t, exec (.character f) s = .next t ∧ t = { s with console := t.console } ∧
        t.replyLines = some [['?', 'U', 'V']]) ∧
    (∀ w ws v, s.ctrl.op ≠ .gated → s.console.overrun = false → a.mark = none → tokens a.text = w :: ws →
      w.map upper = verbText v →
      ∃ t u, exec (.character f) s = .next t ∧
        exec (verbRow v .console ws) { s with console := { s.console with assembling := none } } = .next u ∧
        t = { u with console := t.console } ∧ t.replyLines = u.replyLines)

/-- A line typed character by character is the command of its verb: from a console that has nothing to send or is already
sending, with no line being assembled, its characters and its CR take the part to the state that the verb's row gives,
whichever the verb and the operands, and whether the line is executed, refused, made to wait or dropped. -/
def Obligations.TypedLineIsCommand : Prop :=
  ∀ (v : Verb) (ops : List Token) (s : State), s.running → s.console.assembling = none →
    settle s.console = s.console → operandsOk ops = true →
    execAll (typed s.console.parityInUse (lineText v ops)) s = exec (verbRow v .console ops) s

/-- A line read byte by byte from the preload stream is the command of its verb: at the start of a line, its bytes and its CR
take the part to the state that the verb's preload row gives at the offset past them. -/
def Obligations.StreamedLineIsCommand : Prop :=
  ∀ (v : Verb) (ops : List Token) (s : State), Serves s .preload → s.preload.line = { text := [], mark := none } →
    s.preload.atStart = true → settle s.console = s.console → operandsOk ops = true →
    s.preload.offset + (lineText v ops).length + 1 < 65536 →
    execAll (streamed (lineText v ops)) s =
      exec (verbRow v .preload ops)
        { s with preload := { s.preload with offset := s.preload.offset + (lineText v ops).length + 1 } }

/-- A byte of the preload stream. 00h or FFh at the start of a line ends preload in BYPASS; LF is passed over; ESC discards
the line; a backspace takes back a character; a printable byte is stored; every other byte but CR marks the line; after any
of these but the first, preload that has read offset FFFFh ends with PS. CR completes the line, which is executed: a marked
one ends preload with its code, an empty one is counted, a first token that is no verb ends it with UV, and a verb's line
does what the verb's preload row does; preload that then goes on past offset FFFFh, with no access to wait for, ends with PS.
While preload does not read, there is no byte event (notes/assumptions/4.md). -/
def Obligations.StreamByte : Prop :=
  ∀ (s : State) (b : Byte), s.running →
    ((s.ctrl.op ≠ .gated ∨ s.preloadWaits = true ∨ 65536 ≤ s.preload.offset) →
      exec (.byteEvent b) s = .next { s with console := settle s.console }) ∧
    (Serves s .preload → s.preload.offset < 65536 → s.preload.atStart = true → (b = 0x00 ∨ b = 0xFF) →
      exec (.byteEvent b) s = .next { s with
        ctrl := { s.ctrl with op := .bypass, ret := none }
        preload := { s.preload with offset := s.preload.offset + 1 }
        console := consoleAfter s [.plOk s.preload.lines] }) ∧
    (Serves s .preload → s.preload.offset = 65535 → b ≠ 0x0D → ¬ (s.preload.atStart = true ∧ (b = 0x00 ∨ b = 0xFF)) →
      exec (.byteEvent b) s = .next (preloadErrorEnd
        { s with preload := { s.preload with offset := 65536 } } .ps)) ∧
    (Serves s .preload → s.preload.offset < 65535 →
      (b = 0x0A → exec (.byteEvent b) s = .next { s with
        preload := { s.preload with offset := s.preload.offset + 1 }, console := settle s.console }) ∧
      (b = 0x1B → exec (.byteEvent b) s = .next { s with
        preload := { s.preload with
          offset := s.preload.offset + 1, line := { text := [], mark := none }, atStart := true }
        console := settle s.console }) ∧
      (b = 0x08 → exec (.byteEvent b) s = .next { s with
        preload := { s.preload with
          offset := s.preload.offset + 1
          atStart := false
          line := { s.preload.line with text := s.preload.line.text.dropLast } }
        console := settle s.console }) ∧
      (0x20 ≤ b.toNat → b.toNat ≤ 0x7E → exec (.byteEvent b) s = .next { s with
        preload := { s.preload with
          offset := s.preload.offset + 1
          atStart := false
          line := if s.preload.line.text.length < 72 ∧ s.preload.line.mark ≠ some .ll
            then { s.preload.line with text := s.preload.line.text ++ [Char.ofNat b.toNat] }
            else { s.preload.line with mark := some (s.preload.line.mark.getD .ll) } }
        console := settle s.console }) ∧
      ((b.toNat < 0x20 ∨ 0x7F ≤ b.toNat) → b ≠ 0x08 → b ≠ 0x0A → b ≠ 0x0D → b ≠ 0x1B →
        ¬ (s.preload.atStart = true ∧ (b = 0x00 ∨ b = 0xFF)) → exec (.byteEvent b) s = .next { s with
          preload := { s.preload with
            offset := s.preload.offset + 1
            atStart := false
            line := { s.preload.line with mark := some (s.preload.line.mark.getD .ch) } }
          console := settle s.console })) ∧
    (Serves s .preload → s.preload.offset < 65536 → b = 0x0D →
      (∀ m, s.preload.line.mark = some m → exec (.byteEvent b) s = .next (preloadErrorEnd
        { s with preload := { s.preload with offset := s.preload.offset + 1 } }
        (match m with | .ch => .ch | .ll => .ll | .fr => .fr))) ∧
      (s.preload.line.mark = none → tokens s.preload.line.text = [] →
        (s.preload.offset < 65535 → exec (.byteEvent b) s = .next { s with
          preload := { s.preload with
            offset := s.preload.offset + 1, lines := s.preload.lines + 1
            line := { text := [], mark := none }, atStart := true }
          console := settle s.console }) ∧
        (s.preload.offset = 65535 → exec (.byteEvent b) s = .next (preloadErrorEnd
          { s with preload := { s.preload with offset := 65536, lines := s.preload.lines + 1 } } .ps))) ∧
      (∀ w ws, s.preload.line.mark = none → tokens s.preload.line.text = w :: ws →
        (∀ v : Verb, w.map upper ≠ verbText v) → exec (.byteEvent b) s = .next (preloadErrorEnd
          { s with preload := { s.preload with offset := s.preload.offset + 1 } } .uv)) ∧
      (∀ w ws v u, s.preload.line.mark = none → tokens s.preload.line.text = w :: ws → w.map upper = verbText v →
        u = { s with preload := { s.preload with
          offset := s.preload.offset + 1, line := { text := [], mark := none }, atStart := true } } →
        ∃ t, exec (verbRow v .preload ws) u = .next t ∧
        ((s.preload.offset < 65535 ∨ t.ctrl.op ≠ .gated ∨ t.preloadWaits = true) →
          exec (.byteEvent b) s = .next t) ∧
        (s.preload.offset = 65535 → t.ctrl.op = .gated → t.preloadWaits = false →
          ∃ x, exec (.byteEvent b) s = .next x ∧ x = { preloadErrorEnd t .ps with console := x.console } ∧
            (t.console = s.console → settle s.console = s.console →
              x.console = consoleAfter t [.plEr (t.preload.lines + 1) .ps]))))

/-- A break discards the lines being assembled and waiting, clears the overrun flag, suppresses the response of the line IN
SERVICE as far as it has not begun, leaves an executing line IN SERVICE with its access abandoned, and raises `^BK`; in GATED
it then ends preload with the error AB. That a response line the transmitter has chosen counts as begun is deduced
(notes/assumptions/24.md), and so is that the settings of a suppressed `SP` are taken at the break, while the line that is
then being sent goes on whole under the settings it was begun under (notes/assumptions/27.md). -/
def Obligations.BreakAborts : Prop :=
  ∀ s : State, s.running →
    (s.ctrl.op ≠ .gated → s.console.inService = none → exec .breakEvent s = .next { s with
      console := consoleAfter { s with console := { s.console with
        assembling := none, waiting := none, overrun := false } } [.bk] }) ∧
    (∀ v, s.ctrl.op ≠ .gated → s.console.inService = some v → v.stage = .executing →
      exec .breakEvent s = .next { s with
        mem := { s.mem with inHand := s.mem.inHand.map (fun h =>
          if h.party = .console then { h with party := .nobody } else h) }
        console := consoleAfter { s with console := { s.console with
          assembling := none, waiting := none, overrun := false } } [.bk] }) ∧
    (∀ v, s.ctrl.op ≠ .gated → s.console.inService = some v → v.stage = .responding →
      sendingResponse s.console = false → v.settings = false →
      exec .breakEvent s = .next { s with
        console := consoleAfter { s with console := { s.console with
          assembling := none, waiting := none, overrun := false, inService := none, response := none } } [.bk] }) ∧
    (∀ v, s.ctrl.op ≠ .gated → s.console.inService = some v → v.stage = .responding →
      sendingResponse s.console = false → v.settings = true →
      exec .breakEvent s = .next { s with
        console := consoleAfter { s with console := { s.console with
          assembling := none, waiting := none, overrun := false, inService := none, response := none
          baudInUse := s.ctrl.params.baud, parityInUse := s.ctrl.params.parity
          begunUnder := if s.console.tx = .idle then s.console.begunUnder else some (s.console.begunUnder.getD
            { baud := s.console.baudInUse, parity := s.console.parityInUse }) } } [.bk] }) ∧
    (s.console.tx ≠ .idle → ∃ t, exec .breakEvent s = .next t ∧ t.txdFrames = s.txdFrames ∧ t.txdRate = s.txdRate) ∧
    (∀ v, s.ctrl.op ≠ .gated → s.console.inService = some v → v.stage = .responding →
      sendingResponse s.console = true →
      exec .breakEvent s = .next { s with
        console := consoleAfter { s with console := { s.console with
          assembling := none, waiting := none, overrun := false, response := some [] } } [.bk] }) ∧
    (∀ (sv : Option Service) (rs : Option (List Text)), s.ctrl.op = .gated →
      ((s.console.inService = none ∧ sv = none ∧ rs = s.console.response) ∨
        (∃ v, s.console.inService = some v ∧ v.stage = .responding ∧ v.settings = false ∧
          sendingResponse s.console = false ∧ sv = none ∧ rs = none) ∨
        (∃ v, s.console.inService = some v ∧ v.stage = .responding ∧ sendingResponse s.console = true ∧
          sv = some v ∧ rs = some [])) →
      exec .breakEvent s = .next
        { preloadErrorEnd s .ab with
          mem := { s.mem with inHand := s.mem.inHand.map (fun h =>
            if h.party = .preload then { h with party := .nobody } else h) }
          console := consoleAfter { s with console := { s.console with
            assembling := none, waiting := none, overrun := false, inService := sv, response := rs } }
            [.bk, .plEr (s.preload.lines + 1) .ab] })

/-- The end of a line sent: after `^NL` its notice follows; after a response line the next line of that response follows,
and after the last one the service ends, a line that waits enters service and takes its effect in the same event, and
otherwise a notice may go out; line settings that waited for the end of a line, of a notice, of `^NL` or of a response alike,
are taken into use between the two, and those of an `SP` whose service ends before the line that waited is answered. TXD
carries the line being sent in frames, its characters and CR LF, all under one setting, and rests otherwise. An idle
transmitter sends no end of line (notes/assumptions/4.md), what it sends next is chosen at the end of the event
(notes/assumptions/9.md), settings that wait during `^NL` are taken at its end and not at that of its notice
(notes/assumptions/26.md), and a line goes on under the settings that it was begun under (notes/assumptions/27.md). -/
def Obligations.LineSentGoesOn : Prop :=
  (∀ s : State, s.console.tx = .idle → s.txdFrames = []) ∧
  (∀ (s : State) (t : Text) (w : LineSettings),
    (s.console.tx = .response t ∨ (∃ n, s.console.tx = .notice n ∧ t = noticeText n) ∨
      ∃ k n, s.console.tx = .lost k n ∧ t = lostText k) →
    w = s.console.begunUnder.getD { baud := s.console.baudInUse, parity := s.console.parityInUse } →
    s.txdFrames = framesOf w.parity t ∧
    s.txdRate = (if w.baud = 0 then 9600 else if w.baud = 1 then 19200 else if w.baud = 2 then 57600 else 115200)) ∧
  ∀ s : State, s.running →
    (s.console.tx = .idle → exec .lineSent s = .next { s with console := settle s.console }) ∧
    (∀ n, s.console.tx = .notice n → exec .lineSent s = .next { s with console := settle (lineEnded s) }) ∧
    (∀ k n, s.console.tx = .lost k n → exec .lineSent s = .next { s with
      console := { lineEnded s with tx := .notice n } }) ∧
    (∀ l x xs, s.console.tx = .response l → s.console.response = some (x :: xs) → exec .lineSent s = .next { s with
      console := { lineEnded s with tx := .response x, response := some xs } }) ∧
    (∀ l v, s.console.tx = .response l → s.console.response = some [] → s.console.inService = some v →
      s.console.waiting = none → v.settings = false → exec .lineSent s = .next { s with
        console := settle { lineEnded s with inService := none, response := none } }) ∧
    (∀ l v, s.console.tx = .response l → s.console.response = some [] → s.console.inService = some v →
      s.console.waiting = none → v.settings = true → exec .lineSent s = .next { s with
        console := settle { lineEnded s with
          inService := none, response := none
          baudInUse := s.ctrl.params.baud, parityInUse := s.ctrl.params.parity } }) ∧
    (∀ l v w, s.console.tx = .response l → s.console.response = some [] → s.console.inService = some v →
      s.console.waiting = some w → ∃ t x, exec .lineSent s = .next t ∧ t.console.waiting = none ∧
        t.console.inService = some x ∧ x.line = w ∧
        (v.settings = false → Enters { s with
          console := { lineEnded s with inService := none, waiting := none, response := none } } t w) ∧
        (v.settings = true → Enters { s with
          console := { lineEnded s with
            inService := none, waiting := none, response := none
            baudInUse := s.ctrl.params.baud, parityInUse := s.ctrl.params.parity } } t w))

/-- Numbers are read as they are printed: the hexadecimal digits of a number, in either case of its letters, read back as that
number. A number without a fixed width is printed without leading zeros, and 0 as `0`. -/
def Obligations.HexReadsBack : Prop :=
  ∀ (w n : Nat), n < 16 ^ (w + 1) →
    hexNum (hexFixed (w + 1) n) = some n ∧ hexNum ((hexFixed (w + 1) n).map Char.toLower) = some n ∧
    (hexFixed (w + 1) n).length = w + 1 ∧
    (w + 1 ≤ 16 → hexNum (hexPlain n) = some n ∧ ((hexPlain n).head? = some '0' → n = 0 ∧ hexPlain n = ['0']))

/-! ## Laws that every step keeps -/

/-- Every step keeps the transit table and its three queues lawful: the fields of a slot fit its state; the hold queue, the
forward queue and the near response queue hold exactly the slots in their state, each once; no near tag is owed twice. -/
def Obligations.StepKeepsTransit : Prop :=
  ∀ s t : State, SlotsOk s → TransitOk s → step s = .next t → SlotsOk t ∧ TransitOk t

/-- No near tag is live twice, so the slots that carry one and the near response queue together hold at most eight, and so
does the hold queue. -/
def Obligations.TagsBoundQueues : Prop :=
  ∀ s : State, SlotsOk s → TransitOk s →
    (allSixteen.filter (fun n => (s.slot n).any (fun a => carriesTag a.state))).length + s.near.responses.length ≤ 8 ∧
    s.hold.length ≤ 8 ∧ s.far.forward.length ≤ 8

/-- Every step keeps the capture log lawful: at most 64 records in rising sequence numbers, none above the counter, and the
OPEN records exactly those that HELD, QUEUED and ISSUED slots name, one each. -/
def Obligations.StepKeepsLog : Prop :=
  ∀ s t : State, SlotsOk s → TransitOk s → LogOk s → step s = .next t → LogOk t

/-- The order guard's law at every step: an ORDER slot always has a blocker ahead of it in the hold queue. -/
def Obligations.StepKeepsOrder : Prop :=
  ∀ s t : State, SlotsOk s → TransitOk s → OrderOk s → step s = .next t → OrderOk t

/-- Every step keeps the watch entries and the substitution records lawful: OFF entries have the OFF values, a record number
stands exactly with action SUBST, windows and data conditions are as the table of fields says, record addresses are
aligned. -/
def Obligations.StepKeepsTables : Prop :=
  ∀ s t : State, TablesOk s → step s = .next t → TablesOk t

/-- Every step keeps the state controller and the console lawful: a return state exactly in FROZEN, an aligned cursor, an
access in hand exactly while slot M is QUEUED or ISSUED, at most 16 notices, a response only for a line IN SERVICE, and no
idle transmitter with something to send; settings other than those in use are kept only for a line being sent (deduced:
notes/assumptions/27.md); and while POR_N is asserted the part is in its power-on state, whose placeholders and offers that
stay are the model's choice (notes/assumptions/1.md, 2.md and 11.md). -/
def Obligations.StepKeepsConsole : Prop :=
  ∀ s t : State, ControlOk s → ConsoleOk s → step s = .next t → ControlOk t ∧ ConsoleOk t

/-- The state after reset keeps all of these laws. What that state is before POR_N is negated is the model's choice
(notes/assumptions/1.md and 2.md). -/
def Obligations.ResetKeepsLaws : Prop :=
  SlotsOk State.reset ∧ TransitOk State.reset ∧ LogOk State.reset ∧ OrderOk State.reset ∧ TablesOk State.reset ∧
  ControlOk State.reset ∧ ConsoleOk State.reset

end
end

