-- ==== Sys2Proof/Laws/State.lean ====
section
/-! SUPPORT. What each operation on State leaves as it is: one lemma for each block, and for each field of a changed block
that stays. -/

namespace Sys2Proof.Machine

/-! ### `setSlot` -/

@[simp] theorem State.setSlot_near (s : State) (n : SlotNo) (a : Option Access) : (s.setSlot n a).near = s.near := rfl
@[simp] theorem State.setSlot_far (s : State) (n : SlotNo) (a : Option Access) : (s.setSlot n a).far = s.far := rfl
@[simp] theorem State.setSlot_watch (s : State) (n : SlotNo) (a : Option Access) : (s.setSlot n a).watch = s.watch := rfl
@[simp] theorem State.setSlot_hold (s : State) (n : SlotNo) (a : Option Access) : (s.setSlot n a).hold = s.hold := rfl
@[simp] theorem State.setSlot_subst (s : State) (n : SlotNo) (a : Option Access) : (s.setSlot n a).subst = s.subst := rfl
@[simp] theorem State.setSlot_log (s : State) (n : SlotNo) (a : Option Access) : (s.setSlot n a).log = s.log := rfl
@[simp] theorem State.setSlot_time (s : State) (n : SlotNo) (a : Option Access) : (s.setSlot n a).time = s.time := rfl
@[simp] theorem State.setSlot_alerts (s : State) (n : SlotNo) (a : Option Access) : (s.setSlot n a).alerts = s.alerts := rfl
@[simp] theorem State.setSlot_ctrl (s : State) (n : SlotNo) (a : Option Access) : (s.setSlot n a).ctrl = s.ctrl := rfl
@[simp] theorem State.setSlot_preload (s : State) (n : SlotNo) (a : Option Access) : (s.setSlot n a).preload = s.preload := rfl
@[simp] theorem State.setSlot_console (s : State) (n : SlotNo) (a : Option Access) : (s.setSlot n a).console = s.console := rfl
@[simp] theorem State.setSlot_mem (s : State) (n : SlotNo) (a : Option Access) : (s.setSlot n a).mem = s.mem := rfl
@[simp] theorem State.setSlot_pending (s : State) (n : SlotNo) (a : Option Access) : (s.setSlot n a).pending = s.pending := rfl
@[simp] theorem State.setSlot_transit_slotM (s : State) (n : SlotNo) (a : Option Access) : (s.setSlot n a).transit.slotM = s.transit.slotM := rfl
@[simp] theorem State.setSlot_transit_arrivals (s : State) (n : SlotNo) (a : Option Access) : (s.setSlot n a).transit.arrivals = s.transit.arrivals := rfl
@[simp] theorem State.setSlot_entry (s : State) (n : SlotNo) (a : Option Access) (i : EntryNo) : (s.setSlot n a).entry i = s.entry i := rfl
@[simp] theorem State.setSlot_record (s : State) (n : SlotNo) (a : Option Access) (i : RecordNo) : (s.setSlot n a).record i = s.record i := rfl

/-! ### `modSlot` -/

@[simp] theorem State.modSlot_near (s : State) (n : SlotNo) (f : Access → Access) : (s.modSlot n f).near = s.near := rfl
@[simp] theorem State.modSlot_far (s : State) (n : SlotNo) (f : Access → Access) : (s.modSlot n f).far = s.far := rfl
@[simp] theorem State.modSlot_watch (s : State) (n : SlotNo) (f : Access → Access) : (s.modSlot n f).watch = s.watch := rfl
@[simp] theorem State.modSlot_hold (s : State) (n : SlotNo) (f : Access → Access) : (s.modSlot n f).hold = s.hold := rfl
@[simp] theorem State.modSlot_subst (s : State) (n : SlotNo) (f : Access → Access) : (s.modSlot n f).subst = s.subst := rfl
@[simp] theorem State.modSlot_log (s : State) (n : SlotNo) (f : Access → Access) : (s.modSlot n f).log = s.log := rfl
@[simp] theorem State.modSlot_time (s : State) (n : SlotNo) (f : Access → Access) : (s.modSlot n f).time = s.time := rfl
@[simp] theorem State.modSlot_alerts (s : State) (n : SlotNo) (f : Access → Access) : (s.modSlot n f).alerts = s.alerts := rfl
@[simp] theorem State.modSlot_ctrl (s : State) (n : SlotNo) (f : Access → Access) : (s.modSlot n f).ctrl = s.ctrl := rfl
@[simp] theorem State.modSlot_preload (s : State) (n : SlotNo) (f : Access → Access) : (s.modSlot n f).preload = s.preload := rfl
@[simp] theorem State.modSlot_console (s : State) (n : SlotNo) (f : Access → Access) : (s.modSlot n f).console = s.console := rfl
@[simp] theorem State.modSlot_mem (s : State) (n : SlotNo) (f : Access → Access) : (s.modSlot n f).mem = s.mem := rfl
@[simp] theorem State.modSlot_pending (s : State) (n : SlotNo) (f : Access → Access) : (s.modSlot n f).pending = s.pending := rfl
@[simp] theorem State.modSlot_transit_slotM (s : State) (n : SlotNo) (f : Access → Access) : (s.modSlot n f).transit.slotM = s.transit.slotM := rfl
@[simp] theorem State.modSlot_transit_arrivals (s : State) (n : SlotNo) (f : Access → Access) : (s.modSlot n f).transit.arrivals = s.transit.arrivals := rfl
@[simp] theorem State.modSlot_entry (s : State) (n : SlotNo) (f : Access → Access) (i : EntryNo) : (s.modSlot n f).entry i = s.entry i := rfl
@[simp] theorem State.modSlot_record (s : State) (n : SlotNo) (f : Access → Access) (i : RecordNo) : (s.modSlot n f).record i = s.record i := rfl

/-! ### `setSlotM` -/

@[simp] theorem State.setSlotM_near (s : State) (m : Option MAccess) : (s.setSlotM m).near = s.near := rfl
@[simp] theorem State.setSlotM_far (s : State) (m : Option MAccess) : (s.setSlotM m).far = s.far := rfl
@[simp] theorem State.setSlotM_watch (s : State) (m : Option MAccess) : (s.setSlotM m).watch = s.watch := rfl
@[simp] theorem State.setSlotM_hold (s : State) (m : Option MAccess) : (s.setSlotM m).hold = s.hold := rfl
@[simp] theorem State.setSlotM_subst (s : State) (m : Option MAccess) : (s.setSlotM m).subst = s.subst := rfl
@[simp] theorem State.setSlotM_log (s : State) (m : Option MAccess) : (s.setSlotM m).log = s.log := rfl
@[simp] theorem State.setSlotM_time (s : State) (m : Option MAccess) : (s.setSlotM m).time = s.time := rfl
@[simp] theorem State.setSlotM_alerts (s : State) (m : Option MAccess) : (s.setSlotM m).alerts = s.alerts := rfl
@[simp] theorem State.setSlotM_ctrl (s : State) (m : Option MAccess) : (s.setSlotM m).ctrl = s.ctrl := rfl
@[simp] theorem State.setSlotM_preload (s : State) (m : Option MAccess) : (s.setSlotM m).preload = s.preload := rfl
@[simp] theorem State.setSlotM_console (s : State) (m : Option MAccess) : (s.setSlotM m).console = s.console := rfl
@[simp] theorem State.setSlotM_mem (s : State) (m : Option MAccess) : (s.setSlotM m).mem = s.mem := rfl
@[simp] theorem State.setSlotM_pending (s : State) (m : Option MAccess) : (s.setSlotM m).pending = s.pending := rfl
@[simp] theorem State.setSlotM_transit_slots (s : State) (m : Option MAccess) : (s.setSlotM m).transit.slots = s.transit.slots := rfl
@[simp] theorem State.setSlotM_transit_arrivals (s : State) (m : Option MAccess) : (s.setSlotM m).transit.arrivals = s.transit.arrivals := rfl
@[simp] theorem State.setSlotM_entry (s : State) (m : Option MAccess) (i : EntryNo) : (s.setSlotM m).entry i = s.entry i := rfl
@[simp] theorem State.setSlotM_record (s : State) (m : Option MAccess) (i : RecordNo) : (s.setSlotM m).record i = s.record i := rfl

/-! ### `takeSlot` -/

@[simp] theorem State.takeSlot_near (s : State) (n : SlotNo) (a : Access) : (s.takeSlot n a).near = s.near := rfl
@[simp] theorem State.takeSlot_far (s : State) (n : SlotNo) (a : Access) : (s.takeSlot n a).far = s.far := rfl
@[simp] theorem State.takeSlot_watch (s : State) (n : SlotNo) (a : Access) : (s.takeSlot n a).watch = s.watch := rfl
@[simp] theorem State.takeSlot_hold (s : State) (n : SlotNo) (a : Access) : (s.takeSlot n a).hold = s.hold := rfl
@[simp] theorem State.takeSlot_subst (s : State) (n : SlotNo) (a : Access) : (s.takeSlot n a).subst = s.subst := rfl
@[simp] theorem State.takeSlot_log (s : State) (n : SlotNo) (a : Access) : (s.takeSlot n a).log = s.log := rfl
@[simp] theorem State.takeSlot_time (s : State) (n : SlotNo) (a : Access) : (s.takeSlot n a).time = s.time := rfl
@[simp] theorem State.takeSlot_alerts (s : State) (n : SlotNo) (a : Access) : (s.takeSlot n a).alerts = s.alerts := rfl
@[simp] theorem State.takeSlot_ctrl (s : State) (n : SlotNo) (a : Access) : (s.takeSlot n a).ctrl = s.ctrl := rfl
@[simp] theorem State.takeSlot_preload (s : State) (n : SlotNo) (a : Access) : (s.takeSlot n a).preload = s.preload := rfl
@[simp] theorem State.takeSlot_console (s : State) (n : SlotNo) (a : Access) : (s.takeSlot n a).console = s.console := rfl
@[simp] theorem State.takeSlot_mem (s : State) (n : SlotNo) (a : Access) : (s.takeSlot n a).mem = s.mem := rfl
@[simp] theorem State.takeSlot_pending (s : State) (n : SlotNo) (a : Access) : (s.takeSlot n a).pending = s.pending := rfl
@[simp] theorem State.takeSlot_transit_slotM (s : State) (n : SlotNo) (a : Access) : (s.takeSlot n a).transit.slotM = s.transit.slotM := rfl
@[simp] theorem State.takeSlot_entry (s : State) (n : SlotNo) (a : Access) (i : EntryNo) : (s.takeSlot n a).entry i = s.entry i := rfl
@[simp] theorem State.takeSlot_record (s : State) (n : SlotNo) (a : Access) (i : RecordNo) : (s.takeSlot n a).record i = s.record i := rfl

/-! ### `raise` -/

@[simp] theorem State.raise_transit (s : State) (n : Notice) : (s.raise n).transit = s.transit := rfl
@[simp] theorem State.raise_near (s : State) (n : Notice) : (s.raise n).near = s.near := rfl
@[simp] theorem State.raise_far (s : State) (n : Notice) : (s.raise n).far = s.far := rfl
@[simp] theorem State.raise_watch (s : State) (n : Notice) : (s.raise n).watch = s.watch := rfl
@[simp] theorem State.raise_hold (s : State) (n : Notice) : (s.raise n).hold = s.hold := rfl
@[simp] theorem State.raise_subst (s : State) (n : Notice) : (s.raise n).subst = s.subst := rfl
@[simp] theorem State.raise_log (s : State) (n : Notice) : (s.raise n).log = s.log := rfl
@[simp] theorem State.raise_time (s : State) (n : Notice) : (s.raise n).time = s.time := rfl
@[simp] theorem State.raise_alerts (s : State) (n : Notice) : (s.raise n).alerts = s.alerts := rfl
@[simp] theorem State.raise_ctrl (s : State) (n : Notice) : (s.raise n).ctrl = s.ctrl := rfl
@[simp] theorem State.raise_preload (s : State) (n : Notice) : (s.raise n).preload = s.preload := rfl
@[simp] theorem State.raise_mem (s : State) (n : Notice) : (s.raise n).mem = s.mem := rfl
@[simp] theorem State.raise_pending (s : State) (n : Notice) : (s.raise n).pending = s.pending := rfl
@[simp] theorem State.raise_slot (s : State) (n : Notice) (i : SlotNo) : (s.raise n).slot i = s.slot i := rfl
@[simp] theorem State.raise_slotIs (s : State) (n : Notice) (i : SlotNo) (st : SlotState) : (s.raise n).slotIs i st = s.slotIs i st := rfl
@[simp] theorem State.raise_slotSeq (s : State) (n : Notice) (i : SlotNo) : (s.raise n).slotSeq i = s.slotSeq i := rfl
@[simp] theorem State.raise_entry (s : State) (n : Notice) (i : EntryNo) : (s.raise n).entry i = s.entry i := rfl
@[simp] theorem State.raise_record (s : State) (n : Notice) (i : RecordNo) : (s.raise n).record i = s.record i := rfl

/-! ### `respond` -/

@[simp] theorem State.respond_transit (s : State) (e : RespEntry) : (s.respond e).transit = s.transit := rfl
@[simp] theorem State.respond_far (s : State) (e : RespEntry) : (s.respond e).far = s.far := rfl
@[simp] theorem State.respond_watch (s : State) (e : RespEntry) : (s.respond e).watch = s.watch := rfl
@[simp] theorem State.respond_hold (s : State) (e : RespEntry) : (s.respond e).hold = s.hold := rfl
@[simp] theorem State.respond_subst (s : State) (e : RespEntry) : (s.respond e).subst = s.subst := rfl
@[simp] theorem State.respond_log (s : State) (e : RespEntry) : (s.respond e).log = s.log := rfl
@[simp] theorem State.respond_time (s : State) (e : RespEntry) : (s.respond e).time = s.time := rfl
@[simp] theorem State.respond_alerts (s : State) (e : RespEntry) : (s.respond e).alerts = s.alerts := rfl
@[simp] theorem State.respond_ctrl (s : State) (e : RespEntry) : (s.respond e).ctrl = s.ctrl := rfl
@[simp] theorem State.respond_preload (s : State) (e : RespEntry) : (s.respond e).preload = s.preload := rfl
@[simp] theorem State.respond_console (s : State) (e : RespEntry) : (s.respond e).console = s.console := rfl
@[simp] theorem State.respond_mem (s : State) (e : RespEntry) : (s.respond e).mem = s.mem := rfl
@[simp] theorem State.respond_pending (s : State) (e : RespEntry) : (s.respond e).pending = s.pending := rfl
@[simp] theorem State.respond_near_reset (s : State) (e : RespEntry) : (s.respond e).near.reset = s.near.reset := rfl
@[simp] theorem State.respond_near_lastResponse (s : State) (e : RespEntry) : (s.respond e).near.lastResponse = s.near.lastResponse := rfl
@[simp] theorem State.respond_slot (s : State) (e : RespEntry) (i : SlotNo) : (s.respond e).slot i = s.slot i := rfl
@[simp] theorem State.respond_slotIs (s : State) (e : RespEntry) (i : SlotNo) (st : SlotState) : (s.respond e).slotIs i st = s.slotIs i st := rfl
@[simp] theorem State.respond_slotSeq (s : State) (e : RespEntry) (i : SlotNo) : (s.respond e).slotSeq i = s.slotSeq i := rfl
@[simp] theorem State.respond_entry (s : State) (e : RespEntry) (i : EntryNo) : (s.respond e).entry i = s.entry i := rfl
@[simp] theorem State.respond_record (s : State) (e : RespEntry) (i : RecordNo) : (s.respond e).record i = s.record i := rfl

/-! ### `respondLoose` -/

@[simp] theorem State.respondLoose_transit (s : State) (t : Option NearTag) (r : Reason) : (s.respondLoose t r).transit = s.transit := by unfold State.respondLoose; split <;> rfl
@[simp] theorem State.respondLoose_far (s : State) (t : Option NearTag) (r : Reason) : (s.respondLoose t r).far = s.far := by unfold State.respondLoose; split <;> rfl
@[simp] theorem State.respondLoose_watch (s : State) (t : Option NearTag) (r : Reason) : (s.respondLoose t r).watch = s.watch := by unfold State.respondLoose; split <;> rfl
@[simp] theorem State.respondLoose_hold (s : State) (t : Option NearTag) (r : Reason) : (s.respondLoose t r).hold = s.hold := by unfold State.respondLoose; split <;> rfl
@[simp] theorem State.respondLoose_subst (s : State) (t : Option NearTag) (r : Reason) : (s.respondLoose t r).subst = s.subst := by unfold State.respondLoose; split <;> rfl
@[simp] theorem State.respondLoose_log (s : State) (t : Option NearTag) (r : Reason) : (s.respondLoose t r).log = s.log := by unfold State.respondLoose; split <;> rfl
@[simp] theorem State.respondLoose_time (s : State) (t : Option NearTag) (r : Reason) : (s.respondLoose t r).time = s.time := by unfold State.respondLoose; split <;> rfl
@[simp] theorem State.respondLoose_alerts (s : State) (t : Option NearTag) (r : Reason) : (s.respondLoose t r).alerts = s.alerts := by unfold State.respondLoose; split <;> rfl
@[simp] theorem State.respondLoose_ctrl (s : State) (t : Option NearTag) (r : Reason) : (s.respondLoose t r).ctrl = s.ctrl := by unfold State.respondLoose; split <;> rfl
@[simp] theorem State.respondLoose_preload (s : State) (t : Option NearTag) (r : Reason) : (s.respondLoose t r).preload = s.preload := by unfold State.respondLoose; split <;> rfl
@[simp] theorem State.respondLoose_console (s : State) (t : Option NearTag) (r : Reason) : (s.respondLoose t r).console = s.console := by unfold State.respondLoose; split <;> rfl
@[simp] theorem State.respondLoose_mem (s : State) (t : Option NearTag) (r : Reason) : (s.respondLoose t r).mem = s.mem := by unfold State.respondLoose; split <;> rfl
@[simp] theorem State.respondLoose_pending (s : State) (t : Option NearTag) (r : Reason) : (s.respondLoose t r).pending = s.pending := by unfold State.respondLoose; split <;> rfl
@[simp] theorem State.respondLoose_near_reset (s : State) (t : Option NearTag) (r : Reason) : (s.respondLoose t r).near.reset = s.near.reset := by unfold State.respondLoose; split <;> rfl
@[simp] theorem State.respondLoose_near_lastResponse (s : State) (t : Option NearTag) (r : Reason) : (s.respondLoose t r).near.lastResponse = s.near.lastResponse := by unfold State.respondLoose; split <;> rfl
@[simp] theorem State.respondLoose_slot (s : State) (t : Option NearTag) (r : Reason) (i : SlotNo) : (s.respondLoose t r).slot i = s.slot i := by simp only [State.slot, State.respondLoose_transit]
@[simp] theorem State.respondLoose_slotIs (s : State) (t : Option NearTag) (r : Reason) (i : SlotNo) (st : SlotState) : (s.respondLoose t r).slotIs i st = s.slotIs i st := by simp only [State.slotIs, State.slot, State.respondLoose_transit]
@[simp] theorem State.respondLoose_slotSeq (s : State) (t : Option NearTag) (r : Reason) (i : SlotNo) : (s.respondLoose t r).slotSeq i = s.slotSeq i := by simp only [State.slotSeq, State.slot, State.respondLoose_transit]
@[simp] theorem State.respondLoose_entry (s : State) (t : Option NearTag) (r : Reason) (i : EntryNo) : (s.respondLoose t r).entry i = s.entry i := by simp only [State.entry, State.respondLoose_watch]
@[simp] theorem State.respondLoose_record (s : State) (t : Option NearTag) (r : Reason) (i : RecordNo) : (s.respondLoose t r).record i = s.record i := by simp only [State.record, State.respondLoose_subst]

/-! ### `answerSlot` -/

@[simp] theorem State.answerSlot_far (s : State) (n : SlotNo) (r : Reason) (d : Option Data) : (s.answerSlot n r d).far = s.far := by unfold State.answerSlot; split <;> [rfl; (dsimp only; split <;> rfl)]
@[simp] theorem State.answerSlot_watch (s : State) (n : SlotNo) (r : Reason) (d : Option Data) : (s.answerSlot n r d).watch = s.watch := by unfold State.answerSlot; split <;> [rfl; (dsimp only; split <;> rfl)]
@[simp] theorem State.answerSlot_hold (s : State) (n : SlotNo) (r : Reason) (d : Option Data) : (s.answerSlot n r d).hold = s.hold := by unfold State.answerSlot; split <;> [rfl; (dsimp only; split <;> rfl)]
@[simp] theorem State.answerSlot_subst (s : State) (n : SlotNo) (r : Reason) (d : Option Data) : (s.answerSlot n r d).subst = s.subst := by unfold State.answerSlot; split <;> [rfl; (dsimp only; split <;> rfl)]
@[simp] theorem State.answerSlot_log (s : State) (n : SlotNo) (r : Reason) (d : Option Data) : (s.answerSlot n r d).log = s.log := by unfold State.answerSlot; split <;> [rfl; (dsimp only; split <;> rfl)]
@[simp] theorem State.answerSlot_time (s : State) (n : SlotNo) (r : Reason) (d : Option Data) : (s.answerSlot n r d).time = s.time := by unfold State.answerSlot; split <;> [rfl; (dsimp only; split <;> rfl)]
@[simp] theorem State.answerSlot_alerts (s : State) (n : SlotNo) (r : Reason) (d : Option Data) : (s.answerSlot n r d).alerts = s.alerts := by unfold State.answerSlot; split <;> [rfl; (dsimp only; split <;> rfl)]
@[simp] theorem State.answerSlot_ctrl (s : State) (n : SlotNo) (r : Reason) (d : Option Data) : (s.answerSlot n r d).ctrl = s.ctrl := by unfold State.answerSlot; split <;> [rfl; (dsimp only; split <;> rfl)]
@[simp] theorem State.answerSlot_preload (s : State) (n : SlotNo) (r : Reason) (d : Option Data) : (s.answerSlot n r d).preload = s.preload := by unfold State.answerSlot; split <;> [rfl; (dsimp only; split <;> rfl)]
@[simp] theorem State.answerSlot_console (s : State) (n : SlotNo) (r : Reason) (d : Option Data) : (s.answerSlot n r d).console = s.console := by unfold State.answerSlot; split <;> [rfl; (dsimp only; split <;> rfl)]
@[simp] theorem State.answerSlot_mem (s : State) (n : SlotNo) (r : Reason) (d : Option Data) : (s.answerSlot n r d).mem = s.mem := by unfold State.answerSlot; split <;> [rfl; (dsimp only; split <;> rfl)]
@[simp] theorem State.answerSlot_pending (s : State) (n : SlotNo) (r : Reason) (d : Option Data) : (s.answerSlot n r d).pending = s.pending := by unfold State.answerSlot; split <;> [rfl; (dsimp only; split <;> rfl)]
@[simp] theorem State.answerSlot_transit_slotM (s : State) (n : SlotNo) (r : Reason) (d : Option Data) : (s.answerSlot n r d).transit.slotM = s.transit.slotM := by unfold State.answerSlot; split <;> [rfl; (dsimp only; split <;> rfl)]
@[simp] theorem State.answerSlot_transit_arrivals (s : State) (n : SlotNo) (r : Reason) (d : Option Data) : (s.answerSlot n r d).transit.arrivals = s.transit.arrivals := by unfold State.answerSlot; split <;> [rfl; (dsimp only; split <;> rfl)]
@[simp] theorem State.answerSlot_near_reset (s : State) (n : SlotNo) (r : Reason) (d : Option Data) : (s.answerSlot n r d).near.reset = s.near.reset := by unfold State.answerSlot; split <;> [rfl; (dsimp only; split <;> rfl)]
@[simp] theorem State.answerSlot_near_lastResponse (s : State) (n : SlotNo) (r : Reason) (d : Option Data) : (s.answerSlot n r d).near.lastResponse = s.near.lastResponse := by unfold State.answerSlot; split <;> [rfl; (dsimp only; split <;> rfl)]
@[simp] theorem State.answerSlot_entry (s : State) (n : SlotNo) (r : Reason) (d : Option Data) (i : EntryNo) : (s.answerSlot n r d).entry i = s.entry i := by simp only [State.entry, State.answerSlot_watch]
@[simp] theorem State.answerSlot_record (s : State) (n : SlotNo) (r : Reason) (d : Option Data) (i : RecordNo) : (s.answerSlot n r d).record i = s.record i := by simp only [State.record, State.answerSlot_subst]

/-! ### `forwardSlot` -/

@[simp] theorem State.forwardSlot_near (s : State) (n : SlotNo) : (s.forwardSlot n).near = s.near := rfl
@[simp] theorem State.forwardSlot_watch (s : State) (n : SlotNo) : (s.forwardSlot n).watch = s.watch := rfl
@[simp] theorem State.forwardSlot_hold (s : State) (n : SlotNo) : (s.forwardSlot n).hold = s.hold := rfl
@[simp] theorem State.forwardSlot_subst (s : State) (n : SlotNo) : (s.forwardSlot n).subst = s.subst := rfl
@[simp] theorem State.forwardSlot_log (s : State) (n : SlotNo) : (s.forwardSlot n).log = s.log := rfl
@[simp] theorem State.forwardSlot_time (s : State) (n : SlotNo) : (s.forwardSlot n).time = s.time := rfl
@[simp] theorem State.forwardSlot_alerts (s : State) (n : SlotNo) : (s.forwardSlot n).alerts = s.alerts := rfl
@[simp] theorem State.forwardSlot_ctrl (s : State) (n : SlotNo) : (s.forwardSlot n).ctrl = s.ctrl := rfl
@[simp] theorem State.forwardSlot_preload (s : State) (n : SlotNo) : (s.forwardSlot n).preload = s.preload := rfl
@[simp] theorem State.forwardSlot_console (s : State) (n : SlotNo) : (s.forwardSlot n).console = s.console := rfl
@[simp] theorem State.forwardSlot_mem (s : State) (n : SlotNo) : (s.forwardSlot n).mem = s.mem := rfl
@[simp] theorem State.forwardSlot_pending (s : State) (n : SlotNo) : (s.forwardSlot n).pending = s.pending := rfl
@[simp] theorem State.forwardSlot_transit_slotM (s : State) (n : SlotNo) : (s.forwardSlot n).transit.slotM = s.transit.slotM := rfl
@[simp] theorem State.forwardSlot_transit_arrivals (s : State) (n : SlotNo) : (s.forwardSlot n).transit.arrivals = s.transit.arrivals := rfl
@[simp] theorem State.forwardSlot_far_lastWinner (s : State) (n : SlotNo) : (s.forwardSlot n).far.lastWinner = s.far.lastWinner := rfl
@[simp] theorem State.forwardSlot_far_pulse (s : State) (n : SlotNo) : (s.forwardSlot n).far.pulse = s.far.pulse := rfl
@[simp] theorem State.forwardSlot_far_waiting (s : State) (n : SlotNo) : (s.forwardSlot n).far.waiting = s.far.waiting := rfl
@[simp] theorem State.forwardSlot_far_lastRequest (s : State) (n : SlotNo) : (s.forwardSlot n).far.lastRequest = s.far.lastRequest := rfl
@[simp] theorem State.forwardSlot_entry (s : State) (n : SlotNo) (i : EntryNo) : (s.forwardSlot n).entry i = s.entry i := rfl
@[simp] theorem State.forwardSlot_record (s : State) (n : SlotNo) (i : RecordNo) : (s.forwardSlot n).record i = s.record i := rfl

/-! ### `closeRecord` -/

@[simp] theorem State.closeRecord_near (s : State) (n : SlotNo) (o : RecordOutcome) (r : Option Reason) (d : Option Data) : (s.closeRecord n o r d).near = s.near := by unfold State.closeRecord; split <;> rfl
@[simp] theorem State.closeRecord_far (s : State) (n : SlotNo) (o : RecordOutcome) (r : Option Reason) (d : Option Data) : (s.closeRecord n o r d).far = s.far := by unfold State.closeRecord; split <;> rfl
@[simp] theorem State.closeRecord_watch (s : State) (n : SlotNo) (o : RecordOutcome) (r : Option Reason) (d : Option Data) : (s.closeRecord n o r d).watch = s.watch := by unfold State.closeRecord; split <;> rfl
@[simp] theorem State.closeRecord_hold (s : State) (n : SlotNo) (o : RecordOutcome) (r : Option Reason) (d : Option Data) : (s.closeRecord n o r d).hold = s.hold := by unfold State.closeRecord; split <;> rfl
@[simp] theorem State.closeRecord_subst (s : State) (n : SlotNo) (o : RecordOutcome) (r : Option Reason) (d : Option Data) : (s.closeRecord n o r d).subst = s.subst := by unfold State.closeRecord; split <;> rfl
@[simp] theorem State.closeRecord_time (s : State) (n : SlotNo) (o : RecordOutcome) (r : Option Reason) (d : Option Data) : (s.closeRecord n o r d).time = s.time := by unfold State.closeRecord; split <;> rfl
@[simp] theorem State.closeRecord_alerts (s : State) (n : SlotNo) (o : RecordOutcome) (r : Option Reason) (d : Option Data) : (s.closeRecord n o r d).alerts = s.alerts := by unfold State.closeRecord; split <;> rfl
@[simp] theorem State.closeRecord_ctrl (s : State) (n : SlotNo) (o : RecordOutcome) (r : Option Reason) (d : Option Data) : (s.closeRecord n o r d).ctrl = s.ctrl := by unfold State.closeRecord; split <;> rfl
@[simp] theorem State.closeRecord_preload (s : State) (n : SlotNo) (o : RecordOutcome) (r : Option Reason) (d : Option Data) : (s.closeRecord n o r d).preload = s.preload := by unfold State.closeRecord; split <;> rfl
@[simp] theorem State.closeRecord_console (s : State) (n : SlotNo) (o : RecordOutcome) (r : Option Reason) (d : Option Data) : (s.closeRecord n o r d).console = s.console := by unfold State.closeRecord; split <;> rfl
@[simp] theorem State.closeRecord_mem (s : State) (n : SlotNo) (o : RecordOutcome) (r : Option Reason) (d : Option Data) : (s.closeRecord n o r d).mem = s.mem := by unfold State.closeRecord; split <;> rfl
@[simp] theorem State.closeRecord_pending (s : State) (n : SlotNo) (o : RecordOutcome) (r : Option Reason) (d : Option Data) : (s.closeRecord n o r d).pending = s.pending := by unfold State.closeRecord; split <;> rfl
@[simp] theorem State.closeRecord_transit_slotM (s : State) (n : SlotNo) (o : RecordOutcome) (r : Option Reason) (d : Option Data) : (s.closeRecord n o r d).transit.slotM = s.transit.slotM := by unfold State.closeRecord; split <;> rfl
@[simp] theorem State.closeRecord_transit_arrivals (s : State) (n : SlotNo) (o : RecordOutcome) (r : Option Reason) (d : Option Data) : (s.closeRecord n o r d).transit.arrivals = s.transit.arrivals := by unfold State.closeRecord; split <;> rfl
@[simp] theorem State.closeRecord_log_counter (s : State) (n : SlotNo) (o : RecordOutcome) (r : Option Reason) (d : Option Data) : (s.closeRecord n o r d).log.counter = s.log.counter := by unfold State.closeRecord; split <;> rfl
@[simp] theorem State.closeRecord_log_lost (s : State) (n : SlotNo) (o : RecordOutcome) (r : Option Reason) (d : Option Data) : (s.closeRecord n o r d).log.lost = s.log.lost := by unfold State.closeRecord; split <;> rfl
@[simp] theorem State.closeRecord_log_mode (s : State) (n : SlotNo) (o : RecordOutcome) (r : Option Reason) (d : Option Data) : (s.closeRecord n o r d).log.mode = s.log.mode := by unfold State.closeRecord; split <;> rfl
@[simp] theorem State.closeRecord_entry (s : State) (n : SlotNo) (o : RecordOutcome) (r : Option Reason) (d : Option Data) (i : EntryNo) : (s.closeRecord n o r d).entry i = s.entry i := by simp only [State.entry, State.closeRecord_watch]
@[simp] theorem State.closeRecord_record (s : State) (n : SlotNo) (o : RecordOutcome) (r : Option Reason) (d : Option Data) (i : RecordNo) : (s.closeRecord n o r d).record i = s.record i := by simp only [State.record, State.closeRecord_subst]

/-! ### `markRecord` -/

@[simp] theorem State.markRecord_transit (s : State) (n : SlotNo) (m : PathMark) : (s.markRecord n m).transit = s.transit := by unfold State.markRecord; split <;> rfl
@[simp] theorem State.markRecord_near (s : State) (n : SlotNo) (m : PathMark) : (s.markRecord n m).near = s.near := by unfold State.markRecord; split <;> rfl
@[simp] theorem State.markRecord_far (s : State) (n : SlotNo) (m : PathMark) : (s.markRecord n m).far = s.far := by unfold State.markRecord; split <;> rfl
@[simp] theorem State.markRecord_watch (s : State) (n : SlotNo) (m : PathMark) : (s.markRecord n m).watch = s.watch := by unfold State.markRecord; split <;> rfl
@[simp] theorem State.markRecord_hold (s : State) (n : SlotNo) (m : PathMark) : (s.markRecord n m).hold = s.hold := by unfold State.markRecord; split <;> rfl
@[simp] theorem State.markRecord_subst (s : State) (n : SlotNo) (m : PathMark) : (s.markRecord n m).subst = s.subst := by unfold State.markRecord; split <;> rfl
@[simp] theorem State.markRecord_time (s : State) (n : SlotNo) (m : PathMark) : (s.markRecord n m).time = s.time := by unfold State.markRecord; split <;> rfl
@[simp] theorem State.markRecord_alerts (s : State) (n : SlotNo) (m : PathMark) : (s.markRecord n m).alerts = s.alerts := by unfold State.markRecord; split <;> rfl
@[simp] theorem State.markRecord_ctrl (s : State) (n : SlotNo) (m : PathMark) : (s.markRecord n m).ctrl = s.ctrl := by unfold State.markRecord; split <;> rfl
@[simp] theorem State.markRecord_preload (s : State) (n : SlotNo) (m : PathMark) : (s.markRecord n m).preload = s.preload := by unfold State.markRecord; split <;> rfl
@[simp] theorem State.markRecord_console (s : State) (n : SlotNo) (m : PathMark) : (s.markRecord n m).console = s.console := by unfold State.markRecord; split <;> rfl
@[simp] theorem State.markRecord_mem (s : State) (n : SlotNo) (m : PathMark) : (s.markRecord n m).mem = s.mem := by unfold State.markRecord; split <;> rfl
@[simp] theorem State.markRecord_pending (s : State) (n : SlotNo) (m : PathMark) : (s.markRecord n m).pending = s.pending := by unfold State.markRecord; split <;> rfl
@[simp] theorem State.markRecord_log_counter (s : State) (n : SlotNo) (m : PathMark) : (s.markRecord n m).log.counter = s.log.counter := by unfold State.markRecord; split <;> rfl
@[simp] theorem State.markRecord_log_lost (s : State) (n : SlotNo) (m : PathMark) : (s.markRecord n m).log.lost = s.log.lost := by unfold State.markRecord; split <;> rfl
@[simp] theorem State.markRecord_log_mode (s : State) (n : SlotNo) (m : PathMark) : (s.markRecord n m).log.mode = s.log.mode := by unfold State.markRecord; split <;> rfl
@[simp] theorem State.markRecord_slot (s : State) (n : SlotNo) (m : PathMark) (i : SlotNo) : (s.markRecord n m).slot i = s.slot i := by simp only [State.slot, State.markRecord_transit]
@[simp] theorem State.markRecord_slotIs (s : State) (n : SlotNo) (m : PathMark) (i : SlotNo) (st : SlotState) : (s.markRecord n m).slotIs i st = s.slotIs i st := by simp only [State.slotIs, State.slot, State.markRecord_transit]
@[simp] theorem State.markRecord_slotSeq (s : State) (n : SlotNo) (m : PathMark) (i : SlotNo) : (s.markRecord n m).slotSeq i = s.slotSeq i := by simp only [State.slotSeq, State.slot, State.markRecord_transit]
@[simp] theorem State.markRecord_entry (s : State) (n : SlotNo) (m : PathMark) (i : EntryNo) : (s.markRecord n m).entry i = s.entry i := by simp only [State.entry, State.markRecord_watch]
@[simp] theorem State.markRecord_record (s : State) (n : SlotNo) (m : PathMark) (i : RecordNo) : (s.markRecord n m).record i = s.record i := by simp only [State.record, State.markRecord_subst]

/-! ### `makeRecord` -/

@[simp] theorem State.makeRecord_near (s : State) (n : SlotNo) (r : Word → CaptureRecord) : (s.makeRecord n r).near = s.near := by unfold State.makeRecord; split <;> rfl
@[simp] theorem State.makeRecord_far (s : State) (n : SlotNo) (r : Word → CaptureRecord) : (s.makeRecord n r).far = s.far := by unfold State.makeRecord; split <;> rfl
@[simp] theorem State.makeRecord_watch (s : State) (n : SlotNo) (r : Word → CaptureRecord) : (s.makeRecord n r).watch = s.watch := by unfold State.makeRecord; split <;> rfl
@[simp] theorem State.makeRecord_hold (s : State) (n : SlotNo) (r : Word → CaptureRecord) : (s.makeRecord n r).hold = s.hold := by unfold State.makeRecord; split <;> rfl
@[simp] theorem State.makeRecord_subst (s : State) (n : SlotNo) (r : Word → CaptureRecord) : (s.makeRecord n r).subst = s.subst := by unfold State.makeRecord; split <;> rfl
@[simp] theorem State.makeRecord_time (s : State) (n : SlotNo) (r : Word → CaptureRecord) : (s.makeRecord n r).time = s.time := by unfold State.makeRecord; split <;> rfl
@[simp] theorem State.makeRecord_alerts (s : State) (n : SlotNo) (r : Word → CaptureRecord) : (s.makeRecord n r).alerts = s.alerts := by unfold State.makeRecord; split <;> rfl
@[simp] theorem State.makeRecord_ctrl (s : State) (n : SlotNo) (r : Word → CaptureRecord) : (s.makeRecord n r).ctrl = s.ctrl := by unfold State.makeRecord; split <;> rfl
@[simp] theorem State.makeRecord_preload (s : State) (n : SlotNo) (r : Word → CaptureRecord) : (s.makeRecord n r).preload = s.preload := by unfold State.makeRecord; split <;> rfl
@[simp] theorem State.makeRecord_console (s : State) (n : SlotNo) (r : Word → CaptureRecord) : (s.makeRecord n r).console = s.console := by unfold State.makeRecord; split <;> rfl
@[simp] theorem State.makeRecord_mem (s : State) (n : SlotNo) (r : Word → CaptureRecord) : (s.makeRecord n r).mem = s.mem := by unfold State.makeRecord; split <;> rfl
@[simp] theorem State.makeRecord_pending (s : State) (n : SlotNo) (r : Word → CaptureRecord) : (s.makeRecord n r).pending = s.pending := by unfold State.makeRecord; split <;> rfl
@[simp] theorem State.makeRecord_transit_slotM (s : State) (n : SlotNo) (r : Word → CaptureRecord) : (s.makeRecord n r).transit.slotM = s.transit.slotM := by unfold State.makeRecord; split <;> rfl
@[simp] theorem State.makeRecord_transit_arrivals (s : State) (n : SlotNo) (r : Word → CaptureRecord) : (s.makeRecord n r).transit.arrivals = s.transit.arrivals := by unfold State.makeRecord; split <;> rfl
@[simp] theorem State.makeRecord_entry (s : State) (n : SlotNo) (r : Word → CaptureRecord) (i : EntryNo) : (s.makeRecord n r).entry i = s.entry i := by simp only [State.entry, State.makeRecord_watch]
@[simp] theorem State.makeRecord_record (s : State) (n : SlotNo) (r : Word → CaptureRecord) (i : RecordNo) : (s.makeRecord n r).record i = s.record i := by simp only [State.record, State.makeRecord_subst]

/-! ### `joinAlert` -/

@[simp] theorem State.joinAlert_transit (s : State) (e : EntryNo) : (s.joinAlert e).transit = s.transit := by unfold State.joinAlert; split <;> rfl
@[simp] theorem State.joinAlert_near (s : State) (e : EntryNo) : (s.joinAlert e).near = s.near := by unfold State.joinAlert; split <;> rfl
@[simp] theorem State.joinAlert_far (s : State) (e : EntryNo) : (s.joinAlert e).far = s.far := by unfold State.joinAlert; split <;> rfl
@[simp] theorem State.joinAlert_watch (s : State) (e : EntryNo) : (s.joinAlert e).watch = s.watch := by unfold State.joinAlert; split <;> rfl
@[simp] theorem State.joinAlert_hold (s : State) (e : EntryNo) : (s.joinAlert e).hold = s.hold := by unfold State.joinAlert; split <;> rfl
@[simp] theorem State.joinAlert_subst (s : State) (e : EntryNo) : (s.joinAlert e).subst = s.subst := by unfold State.joinAlert; split <;> rfl
@[simp] theorem State.joinAlert_log (s : State) (e : EntryNo) : (s.joinAlert e).log = s.log := by unfold State.joinAlert; split <;> rfl
@[simp] theorem State.joinAlert_time (s : State) (e : EntryNo) : (s.joinAlert e).time = s.time := by unfold State.joinAlert; split <;> rfl
@[simp] theorem State.joinAlert_ctrl (s : State) (e : EntryNo) : (s.joinAlert e).ctrl = s.ctrl := by unfold State.joinAlert; split <;> rfl
@[simp] theorem State.joinAlert_preload (s : State) (e : EntryNo) : (s.joinAlert e).preload = s.preload := by unfold State.joinAlert; split <;> rfl
@[simp] theorem State.joinAlert_mem (s : State) (e : EntryNo) : (s.joinAlert e).mem = s.mem := by unfold State.joinAlert; split <;> rfl
@[simp] theorem State.joinAlert_pending (s : State) (e : EntryNo) : (s.joinAlert e).pending = s.pending := by unfold State.joinAlert; split <;> rfl
@[simp] theorem State.joinAlert_slot (s : State) (e : EntryNo) (i : SlotNo) : (s.joinAlert e).slot i = s.slot i := by simp only [State.slot, State.joinAlert_transit]
@[simp] theorem State.joinAlert_slotIs (s : State) (e : EntryNo) (i : SlotNo) (st : SlotState) : (s.joinAlert e).slotIs i st = s.slotIs i st := by simp only [State.slotIs, State.slot, State.joinAlert_transit]
@[simp] theorem State.joinAlert_slotSeq (s : State) (e : EntryNo) (i : SlotNo) : (s.joinAlert e).slotSeq i = s.slotSeq i := by simp only [State.slotSeq, State.slot, State.joinAlert_transit]
@[simp] theorem State.joinAlert_entry (s : State) (e : EntryNo) (i : EntryNo) : (s.joinAlert e).entry i = s.entry i := by simp only [State.entry, State.joinAlert_watch]
@[simp] theorem State.joinAlert_record (s : State) (e : EntryNo) (i : RecordNo) : (s.joinAlert e).record i = s.record i := by simp only [State.record, State.joinAlert_subst]

/-! ### `setEntry` -/

@[simp] theorem State.setEntry_transit (s : State) (n : EntryNo) (e : WatchEntry) : (s.setEntry n e).transit = s.transit := rfl
@[simp] theorem State.setEntry_near (s : State) (n : EntryNo) (e : WatchEntry) : (s.setEntry n e).near = s.near := rfl
@[simp] theorem State.setEntry_far (s : State) (n : EntryNo) (e : WatchEntry) : (s.setEntry n e).far = s.far := rfl
@[simp] theorem State.setEntry_hold (s : State) (n : EntryNo) (e : WatchEntry) : (s.setEntry n e).hold = s.hold := rfl
@[simp] theorem State.setEntry_subst (s : State) (n : EntryNo) (e : WatchEntry) : (s.setEntry n e).subst = s.subst := rfl
@[simp] theorem State.setEntry_log (s : State) (n : EntryNo) (e : WatchEntry) : (s.setEntry n e).log = s.log := rfl
@[simp] theorem State.setEntry_time (s : State) (n : EntryNo) (e : WatchEntry) : (s.setEntry n e).time = s.time := rfl
@[simp] theorem State.setEntry_alerts (s : State) (n : EntryNo) (e : WatchEntry) : (s.setEntry n e).alerts = s.alerts := rfl
@[simp] theorem State.setEntry_ctrl (s : State) (n : EntryNo) (e : WatchEntry) : (s.setEntry n e).ctrl = s.ctrl := rfl
@[simp] theorem State.setEntry_preload (s : State) (n : EntryNo) (e : WatchEntry) : (s.setEntry n e).preload = s.preload := rfl
@[simp] theorem State.setEntry_console (s : State) (n : EntryNo) (e : WatchEntry) : (s.setEntry n e).console = s.console := rfl
@[simp] theorem State.setEntry_mem (s : State) (n : EntryNo) (e : WatchEntry) : (s.setEntry n e).mem = s.mem := rfl
@[simp] theorem State.setEntry_pending (s : State) (n : EntryNo) (e : WatchEntry) : (s.setEntry n e).pending = s.pending := rfl
@[simp] theorem State.setEntry_slot (s : State) (n : EntryNo) (e : WatchEntry) (i : SlotNo) : (s.setEntry n e).slot i = s.slot i := rfl
@[simp] theorem State.setEntry_slotIs (s : State) (n : EntryNo) (e : WatchEntry) (i : SlotNo) (st : SlotState) : (s.setEntry n e).slotIs i st = s.slotIs i st := rfl
@[simp] theorem State.setEntry_slotSeq (s : State) (n : EntryNo) (e : WatchEntry) (i : SlotNo) : (s.setEntry n e).slotSeq i = s.slotSeq i := rfl
@[simp] theorem State.setEntry_record (s : State) (n : EntryNo) (e : WatchEntry) (i : RecordNo) : (s.setEntry n e).record i = s.record i := rfl

/-! ### `entriesOff` -/

@[simp] theorem State.entriesOff_transit (s : State) : (s.entriesOff).transit = s.transit := rfl
@[simp] theorem State.entriesOff_near (s : State) : (s.entriesOff).near = s.near := rfl
@[simp] theorem State.entriesOff_far (s : State) : (s.entriesOff).far = s.far := rfl
@[simp] theorem State.entriesOff_hold (s : State) : (s.entriesOff).hold = s.hold := rfl
@[simp] theorem State.entriesOff_subst (s : State) : (s.entriesOff).subst = s.subst := rfl
@[simp] theorem State.entriesOff_log (s : State) : (s.entriesOff).log = s.log := rfl
@[simp] theorem State.entriesOff_time (s : State) : (s.entriesOff).time = s.time := rfl
@[simp] theorem State.entriesOff_alerts (s : State) : (s.entriesOff).alerts = s.alerts := rfl
@[simp] theorem State.entriesOff_ctrl (s : State) : (s.entriesOff).ctrl = s.ctrl := rfl
@[simp] theorem State.entriesOff_preload (s : State) : (s.entriesOff).preload = s.preload := rfl
@[simp] theorem State.entriesOff_console (s : State) : (s.entriesOff).console = s.console := rfl
@[simp] theorem State.entriesOff_mem (s : State) : (s.entriesOff).mem = s.mem := rfl
@[simp] theorem State.entriesOff_pending (s : State) : (s.entriesOff).pending = s.pending := rfl
@[simp] theorem State.entriesOff_slot (s : State)  (i : SlotNo) : (s.entriesOff).slot i = s.slot i := rfl
@[simp] theorem State.entriesOff_slotIs (s : State)  (i : SlotNo) (st : SlotState) : (s.entriesOff).slotIs i st = s.slotIs i st := rfl
@[simp] theorem State.entriesOff_slotSeq (s : State)  (i : SlotNo) : (s.entriesOff).slotSeq i = s.slotSeq i := rfl
@[simp] theorem State.entriesOff_record (s : State)  (i : RecordNo) : (s.entriesOff).record i = s.record i := rfl

/-! ### `setRecord` -/

@[simp] theorem State.setRecord_transit (s : State) (n : RecordNo) (r : SubstRecord) : (s.setRecord n r).transit = s.transit := rfl
@[simp] theorem State.setRecord_near (s : State) (n : RecordNo) (r : SubstRecord) : (s.setRecord n r).near = s.near := rfl
@[simp] theorem State.setRecord_far (s : State) (n : RecordNo) (r : SubstRecord) : (s.setRecord n r).far = s.far := rfl
@[simp] theorem State.setRecord_watch (s : State) (n : RecordNo) (r : SubstRecord) : (s.setRecord n r).watch = s.watch := rfl
@[simp] theorem State.setRecord_hold (s : State) (n : RecordNo) (r : SubstRecord) : (s.setRecord n r).hold = s.hold := rfl
@[simp] theorem State.setRecord_log (s : State) (n : RecordNo) (r : SubstRecord) : (s.setRecord n r).log = s.log := rfl
@[simp] theorem State.setRecord_time (s : State) (n : RecordNo) (r : SubstRecord) : (s.setRecord n r).time = s.time := rfl
@[simp] theorem State.setRecord_alerts (s : State) (n : RecordNo) (r : SubstRecord) : (s.setRecord n r).alerts = s.alerts := rfl
@[simp] theorem State.setRecord_ctrl (s : State) (n : RecordNo) (r : SubstRecord) : (s.setRecord n r).ctrl = s.ctrl := rfl
@[simp] theorem State.setRecord_preload (s : State) (n : RecordNo) (r : SubstRecord) : (s.setRecord n r).preload = s.preload := rfl
@[simp] theorem State.setRecord_console (s : State) (n : RecordNo) (r : SubstRecord) : (s.setRecord n r).console = s.console := rfl
@[simp] theorem State.setRecord_mem (s : State) (n : RecordNo) (r : SubstRecord) : (s.setRecord n r).mem = s.mem := rfl
@[simp] theorem State.setRecord_pending (s : State) (n : RecordNo) (r : SubstRecord) : (s.setRecord n r).pending = s.pending := rfl
@[simp] theorem State.setRecord_slot (s : State) (n : RecordNo) (r : SubstRecord) (i : SlotNo) : (s.setRecord n r).slot i = s.slot i := rfl
@[simp] theorem State.setRecord_slotIs (s : State) (n : RecordNo) (r : SubstRecord) (i : SlotNo) (st : SlotState) : (s.setRecord n r).slotIs i st = s.slotIs i st := rfl
@[simp] theorem State.setRecord_slotSeq (s : State) (n : RecordNo) (r : SubstRecord) (i : SlotNo) : (s.setRecord n r).slotSeq i = s.slotSeq i := rfl
@[simp] theorem State.setRecord_entry (s : State) (n : RecordNo) (r : SubstRecord) (i : EntryNo) : (s.setRecord n r).entry i = s.entry i := rfl

/-! ### `recordsInvalid` -/

@[simp] theorem State.recordsInvalid_transit (s : State) : (s.recordsInvalid).transit = s.transit := rfl
@[simp] theorem State.recordsInvalid_near (s : State) : (s.recordsInvalid).near = s.near := rfl
@[simp] theorem State.recordsInvalid_far (s : State) : (s.recordsInvalid).far = s.far := rfl
@[simp] theorem State.recordsInvalid_watch (s : State) : (s.recordsInvalid).watch = s.watch := rfl
@[simp] theorem State.recordsInvalid_hold (s : State) : (s.recordsInvalid).hold = s.hold := rfl
@[simp] theorem State.recordsInvalid_log (s : State) : (s.recordsInvalid).log = s.log := rfl
@[simp] theorem State.recordsInvalid_time (s : State) : (s.recordsInvalid).time = s.time := rfl
@[simp] theorem State.recordsInvalid_alerts (s : State) : (s.recordsInvalid).alerts = s.alerts := rfl
@[simp] theorem State.recordsInvalid_ctrl (s : State) : (s.recordsInvalid).ctrl = s.ctrl := rfl
@[simp] theorem State.recordsInvalid_preload (s : State) : (s.recordsInvalid).preload = s.preload := rfl
@[simp] theorem State.recordsInvalid_console (s : State) : (s.recordsInvalid).console = s.console := rfl
@[simp] theorem State.recordsInvalid_mem (s : State) : (s.recordsInvalid).mem = s.mem := rfl
@[simp] theorem State.recordsInvalid_pending (s : State) : (s.recordsInvalid).pending = s.pending := rfl
@[simp] theorem State.recordsInvalid_slot (s : State)  (i : SlotNo) : (s.recordsInvalid).slot i = s.slot i := rfl
@[simp] theorem State.recordsInvalid_slotIs (s : State)  (i : SlotNo) (st : SlotState) : (s.recordsInvalid).slotIs i st = s.slotIs i st := rfl
@[simp] theorem State.recordsInvalid_slotSeq (s : State)  (i : SlotNo) : (s.recordsInvalid).slotSeq i = s.slotSeq i := rfl
@[simp] theorem State.recordsInvalid_entry (s : State)  (i : EntryNo) : (s.recordsInvalid).entry i = s.entry i := rfl

/-! ### `enter` -/

@[simp] theorem State.enter_transit (s : State) (o : OpState) : (s.enter o).transit = s.transit := rfl
@[simp] theorem State.enter_near (s : State) (o : OpState) : (s.enter o).near = s.near := rfl
@[simp] theorem State.enter_far (s : State) (o : OpState) : (s.enter o).far = s.far := rfl
@[simp] theorem State.enter_watch (s : State) (o : OpState) : (s.enter o).watch = s.watch := rfl
@[simp] theorem State.enter_hold (s : State) (o : OpState) : (s.enter o).hold = s.hold := rfl
@[simp] theorem State.enter_subst (s : State) (o : OpState) : (s.enter o).subst = s.subst := rfl
@[simp] theorem State.enter_log (s : State) (o : OpState) : (s.enter o).log = s.log := rfl
@[simp] theorem State.enter_time (s : State) (o : OpState) : (s.enter o).time = s.time := rfl
@[simp] theorem State.enter_alerts (s : State) (o : OpState) : (s.enter o).alerts = s.alerts := rfl
@[simp] theorem State.enter_preload (s : State) (o : OpState) : (s.enter o).preload = s.preload := rfl
@[simp] theorem State.enter_console (s : State) (o : OpState) : (s.enter o).console = s.console := rfl
@[simp] theorem State.enter_mem (s : State) (o : OpState) : (s.enter o).mem = s.mem := rfl
@[simp] theorem State.enter_pending (s : State) (o : OpState) : (s.enter o).pending = s.pending := rfl
@[simp] theorem State.enter_ctrl_params (s : State) (o : OpState) : (s.enter o).ctrl.params = s.ctrl.params := rfl
@[simp] theorem State.enter_ctrl_por (s : State) (o : OpState) : (s.enter o).ctrl.por = s.ctrl.por := rfl
@[simp] theorem State.enter_ctrl_trigger (s : State) (o : OpState) : (s.enter o).ctrl.trigger = s.ctrl.trigger := rfl
@[simp] theorem State.enter_slot (s : State) (o : OpState) (i : SlotNo) : (s.enter o).slot i = s.slot i := rfl
@[simp] theorem State.enter_slotIs (s : State) (o : OpState) (i : SlotNo) (st : SlotState) : (s.enter o).slotIs i st = s.slotIs i st := rfl
@[simp] theorem State.enter_slotSeq (s : State) (o : OpState) (i : SlotNo) : (s.enter o).slotSeq i = s.slotSeq i := rfl
@[simp] theorem State.enter_entry (s : State) (o : OpState) (i : EntryNo) : (s.enter o).entry i = s.entry i := rfl
@[simp] theorem State.enter_record (s : State) (o : OpState) (i : RecordNo) : (s.enter o).record i = s.record i := rfl

/-! ### `freeze` -/

@[simp] theorem State.freeze_transit (s : State) (r : ReturnState) : (s.freeze r).transit = s.transit := rfl
@[simp] theorem State.freeze_near (s : State) (r : ReturnState) : (s.freeze r).near = s.near := rfl
@[simp] theorem State.freeze_far (s : State) (r : ReturnState) : (s.freeze r).far = s.far := rfl
@[simp] theorem State.freeze_watch (s : State) (r : ReturnState) : (s.freeze r).watch = s.watch := rfl
@[simp] theorem State.freeze_hold (s : State) (r : ReturnState) : (s.freeze r).hold = s.hold := rfl
@[simp] theorem State.freeze_subst (s : State) (r : ReturnState) : (s.freeze r).subst = s.subst := rfl
@[simp] theorem State.freeze_log (s : State) (r : ReturnState) : (s.freeze r).log = s.log := rfl
@[simp] theorem State.freeze_time (s : State) (r : ReturnState) : (s.freeze r).time = s.time := rfl
@[simp] theorem State.freeze_alerts (s : State) (r : ReturnState) : (s.freeze r).alerts = s.alerts := rfl
@[simp] theorem State.freeze_preload (s : State) (r : ReturnState) : (s.freeze r).preload = s.preload := rfl
@[simp] theorem State.freeze_mem (s : State) (r : ReturnState) : (s.freeze r).mem = s.mem := rfl
@[simp] theorem State.freeze_pending (s : State) (r : ReturnState) : (s.freeze r).pending = s.pending := rfl
@[simp] theorem State.freeze_ctrl_params (s : State) (r : ReturnState) : (s.freeze r).ctrl.params = s.ctrl.params := rfl
@[simp] theorem State.freeze_ctrl_por (s : State) (r : ReturnState) : (s.freeze r).ctrl.por = s.ctrl.por := rfl
@[simp] theorem State.freeze_ctrl_trigger (s : State) (r : ReturnState) : (s.freeze r).ctrl.trigger = s.ctrl.trigger := rfl
@[simp] theorem State.freeze_slot (s : State) (r : ReturnState) (i : SlotNo) : (s.freeze r).slot i = s.slot i := rfl
@[simp] theorem State.freeze_slotIs (s : State) (r : ReturnState) (i : SlotNo) (st : SlotState) : (s.freeze r).slotIs i st = s.slotIs i st := rfl
@[simp] theorem State.freeze_slotSeq (s : State) (r : ReturnState) (i : SlotNo) : (s.freeze r).slotSeq i = s.slotSeq i := rfl
@[simp] theorem State.freeze_entry (s : State) (r : ReturnState) (i : EntryNo) : (s.freeze r).entry i = s.entry i := rfl
@[simp] theorem State.freeze_record (s : State) (r : ReturnState) (i : RecordNo) : (s.freeze r).record i = s.record i := rfl

/-! ### `judgeEntries` -/

@[simp] theorem State.judgeEntries_transit (s : State) (j : Judged) : (s.judgeEntries j).transit = s.transit := by dsimp only [State.judgeEntries]
@[simp] theorem State.judgeEntries_near (s : State) (j : Judged) : (s.judgeEntries j).near = s.near := by dsimp only [State.judgeEntries]
@[simp] theorem State.judgeEntries_far (s : State) (j : Judged) : (s.judgeEntries j).far = s.far := by dsimp only [State.judgeEntries]
@[simp] theorem State.judgeEntries_hold (s : State) (j : Judged) : (s.judgeEntries j).hold = s.hold := by dsimp only [State.judgeEntries]
@[simp] theorem State.judgeEntries_subst (s : State) (j : Judged) : (s.judgeEntries j).subst = s.subst := by dsimp only [State.judgeEntries]
@[simp] theorem State.judgeEntries_log (s : State) (j : Judged) : (s.judgeEntries j).log = s.log := by dsimp only [State.judgeEntries]
@[simp] theorem State.judgeEntries_time (s : State) (j : Judged) : (s.judgeEntries j).time = s.time := by dsimp only [State.judgeEntries]
@[simp] theorem State.judgeEntries_alerts (s : State) (j : Judged) : (s.judgeEntries j).alerts = s.alerts := by dsimp only [State.judgeEntries]
@[simp] theorem State.judgeEntries_ctrl (s : State) (j : Judged) : (s.judgeEntries j).ctrl = s.ctrl := by dsimp only [State.judgeEntries]
@[simp] theorem State.judgeEntries_preload (s : State) (j : Judged) : (s.judgeEntries j).preload = s.preload := by dsimp only [State.judgeEntries]
@[simp] theorem State.judgeEntries_console (s : State) (j : Judged) : (s.judgeEntries j).console = s.console := by dsimp only [State.judgeEntries]
@[simp] theorem State.judgeEntries_mem (s : State) (j : Judged) : (s.judgeEntries j).mem = s.mem := by dsimp only [State.judgeEntries]
@[simp] theorem State.judgeEntries_pending (s : State) (j : Judged) : (s.judgeEntries j).pending = s.pending := by dsimp only [State.judgeEntries]
@[simp] theorem State.judgeEntries_slot (s : State) (j : Judged) (i : SlotNo) : (s.judgeEntries j).slot i = s.slot i := by simp only [State.slot, State.judgeEntries_transit]
@[simp] theorem State.judgeEntries_slotIs (s : State) (j : Judged) (i : SlotNo) (st : SlotState) : (s.judgeEntries j).slotIs i st = s.slotIs i st := by simp only [State.slotIs, State.slot, State.judgeEntries_transit]
@[simp] theorem State.judgeEntries_slotSeq (s : State) (j : Judged) (i : SlotNo) : (s.judgeEntries j).slotSeq i = s.slotSeq i := by simp only [State.slotSeq, State.slot, State.judgeEntries_transit]
@[simp] theorem State.judgeEntries_record (s : State) (j : Judged) (i : RecordNo) : (s.judgeEntries j).record i = s.record i := by simp only [State.record, State.judgeEntries_subst]

/-! ### `triggerEntries` -/

@[simp] theorem State.triggerEntries_transit (s : State) : (s.triggerEntries).transit = s.transit := by unfold State.triggerEntries; split <;> rfl
@[simp] theorem State.triggerEntries_near (s : State) : (s.triggerEntries).near = s.near := by unfold State.triggerEntries; split <;> rfl
@[simp] theorem State.triggerEntries_far (s : State) : (s.triggerEntries).far = s.far := by unfold State.triggerEntries; split <;> rfl
@[simp] theorem State.triggerEntries_hold (s : State) : (s.triggerEntries).hold = s.hold := by unfold State.triggerEntries; split <;> rfl
@[simp] theorem State.triggerEntries_subst (s : State) : (s.triggerEntries).subst = s.subst := by unfold State.triggerEntries; split <;> rfl
@[simp] theorem State.triggerEntries_log (s : State) : (s.triggerEntries).log = s.log := by unfold State.triggerEntries; split <;> rfl
@[simp] theorem State.triggerEntries_time (s : State) : (s.triggerEntries).time = s.time := by unfold State.triggerEntries; split <;> rfl
@[simp] theorem State.triggerEntries_alerts (s : State) : (s.triggerEntries).alerts = s.alerts := by unfold State.triggerEntries; split <;> rfl
@[simp] theorem State.triggerEntries_ctrl (s : State) : (s.triggerEntries).ctrl = s.ctrl := by unfold State.triggerEntries; split <;> rfl
@[simp] theorem State.triggerEntries_preload (s : State) : (s.triggerEntries).preload = s.preload := by unfold State.triggerEntries; split <;> rfl
@[simp] theorem State.triggerEntries_console (s : State) : (s.triggerEntries).console = s.console := by unfold State.triggerEntries; split <;> rfl
@[simp] theorem State.triggerEntries_mem (s : State) : (s.triggerEntries).mem = s.mem := by unfold State.triggerEntries; split <;> rfl
@[simp] theorem State.triggerEntries_pending (s : State) : (s.triggerEntries).pending = s.pending := by unfold State.triggerEntries; split <;> rfl
@[simp] theorem State.triggerEntries_slot (s : State)  (i : SlotNo) : (s.triggerEntries).slot i = s.slot i := by simp only [State.slot, State.triggerEntries_transit]
@[simp] theorem State.triggerEntries_slotIs (s : State)  (i : SlotNo) (st : SlotState) : (s.triggerEntries).slotIs i st = s.slotIs i st := by simp only [State.slotIs, State.slot, State.triggerEntries_transit]
@[simp] theorem State.triggerEntries_slotSeq (s : State)  (i : SlotNo) : (s.triggerEntries).slotSeq i = s.slotSeq i := by simp only [State.slotSeq, State.slot, State.triggerEntries_transit]
@[simp] theorem State.triggerEntries_record (s : State)  (i : RecordNo) : (s.triggerEntries).record i = s.record i := by simp only [State.record, State.triggerEntries_subst]

/-! ### `carryOut` -/

@[simp] theorem State.carryOut_watch (s : State) (n : SlotNo) : (s.carryOut n).watch = s.watch := by unfold State.carryOut; split <;> [rfl; (split <;> simp)]
@[simp] theorem State.carryOut_hold (s : State) (n : SlotNo) : (s.carryOut n).hold = s.hold := by unfold State.carryOut; split <;> [rfl; (split <;> simp)]
@[simp] theorem State.carryOut_time (s : State) (n : SlotNo) : (s.carryOut n).time = s.time := by unfold State.carryOut; split <;> [rfl; (split <;> simp)]
@[simp] theorem State.carryOut_alerts (s : State) (n : SlotNo) : (s.carryOut n).alerts = s.alerts := by unfold State.carryOut; split <;> [rfl; (split <;> simp)]
@[simp] theorem State.carryOut_ctrl (s : State) (n : SlotNo) : (s.carryOut n).ctrl = s.ctrl := by unfold State.carryOut; split <;> [rfl; (split <;> simp)]
@[simp] theorem State.carryOut_preload (s : State) (n : SlotNo) : (s.carryOut n).preload = s.preload := by unfold State.carryOut; split <;> [rfl; (split <;> simp)]
@[simp] theorem State.carryOut_console (s : State) (n : SlotNo) : (s.carryOut n).console = s.console := by unfold State.carryOut; split <;> [rfl; (split <;> simp)]
@[simp] theorem State.carryOut_mem (s : State) (n : SlotNo) : (s.carryOut n).mem = s.mem := by unfold State.carryOut; split <;> [rfl; (split <;> simp)]
@[simp] theorem State.carryOut_pending (s : State) (n : SlotNo) : (s.carryOut n).pending = s.pending := by unfold State.carryOut; split <;> [rfl; (split <;> simp)]
@[simp] theorem State.carryOut_transit_slotM (s : State) (n : SlotNo) : (s.carryOut n).transit.slotM = s.transit.slotM := by unfold State.carryOut; split <;> [rfl; (split <;> simp)]
@[simp] theorem State.carryOut_transit_arrivals (s : State) (n : SlotNo) : (s.carryOut n).transit.arrivals = s.transit.arrivals := by unfold State.carryOut; split <;> [rfl; (split <;> simp)]
@[simp] theorem State.carryOut_near_reset (s : State) (n : SlotNo) : (s.carryOut n).near.reset = s.near.reset := by unfold State.carryOut; split <;> [rfl; (split <;> simp)]
@[simp] theorem State.carryOut_near_lastResponse (s : State) (n : SlotNo) : (s.carryOut n).near.lastResponse = s.near.lastResponse := by unfold State.carryOut; split <;> [rfl; (split <;> simp)]
@[simp] theorem State.carryOut_far_lastWinner (s : State) (n : SlotNo) : (s.carryOut n).far.lastWinner = s.far.lastWinner := by unfold State.carryOut; split <;> [rfl; (split <;> simp)]
@[simp] theorem State.carryOut_far_pulse (s : State) (n : SlotNo) : (s.carryOut n).far.pulse = s.far.pulse := by unfold State.carryOut; split <;> [rfl; (split <;> simp)]
@[simp] theorem State.carryOut_far_waiting (s : State) (n : SlotNo) : (s.carryOut n).far.waiting = s.far.waiting := by unfold State.carryOut; split <;> [rfl; (split <;> simp)]
@[simp] theorem State.carryOut_far_lastRequest (s : State) (n : SlotNo) : (s.carryOut n).far.lastRequest = s.far.lastRequest := by unfold State.carryOut; split <;> [rfl; (split <;> simp)]
@[simp] theorem State.carryOut_log_counter (s : State) (n : SlotNo) : (s.carryOut n).log.counter = s.log.counter := by unfold State.carryOut; split <;> [rfl; (split <;> simp)]
@[simp] theorem State.carryOut_log_lost (s : State) (n : SlotNo) : (s.carryOut n).log.lost = s.log.lost := by unfold State.carryOut; split <;> [rfl; (split <;> simp)]
@[simp] theorem State.carryOut_log_mode (s : State) (n : SlotNo) : (s.carryOut n).log.mode = s.log.mode := by unfold State.carryOut; split <;> [rfl; (split <;> simp)]
@[simp] theorem State.carryOut_entry (s : State) (n : SlotNo) (i : EntryNo) : (s.carryOut n).entry i = s.entry i := by simp only [State.entry, State.carryOut_watch]

/-! ### `leaveHold` -/

@[simp] theorem State.leaveHold_transit (s : State) (n : SlotNo) : (s.leaveHold n).transit = s.transit := rfl
@[simp] theorem State.leaveHold_near (s : State) (n : SlotNo) : (s.leaveHold n).near = s.near := rfl
@[simp] theorem State.leaveHold_far (s : State) (n : SlotNo) : (s.leaveHold n).far = s.far := rfl
@[simp] theorem State.leaveHold_watch (s : State) (n : SlotNo) : (s.leaveHold n).watch = s.watch := rfl
@[simp] theorem State.leaveHold_subst (s : State) (n : SlotNo) : (s.leaveHold n).subst = s.subst := rfl
@[simp] theorem State.leaveHold_log (s : State) (n : SlotNo) : (s.leaveHold n).log = s.log := rfl
@[simp] theorem State.leaveHold_time (s : State) (n : SlotNo) : (s.leaveHold n).time = s.time := rfl
@[simp] theorem State.leaveHold_alerts (s : State) (n : SlotNo) : (s.leaveHold n).alerts = s.alerts := rfl
@[simp] theorem State.leaveHold_ctrl (s : State) (n : SlotNo) : (s.leaveHold n).ctrl = s.ctrl := rfl
@[simp] theorem State.leaveHold_preload (s : State) (n : SlotNo) : (s.leaveHold n).preload = s.preload := rfl
@[simp] theorem State.leaveHold_console (s : State) (n : SlotNo) : (s.leaveHold n).console = s.console := rfl
@[simp] theorem State.leaveHold_mem (s : State) (n : SlotNo) : (s.leaveHold n).mem = s.mem := rfl
@[simp] theorem State.leaveHold_pending (s : State) (n : SlotNo) : (s.leaveHold n).pending = s.pending := rfl
@[simp] theorem State.leaveHold_slot (s : State) (n : SlotNo) (i : SlotNo) : (s.leaveHold n).slot i = s.slot i := rfl
@[simp] theorem State.leaveHold_slotIs (s : State) (n : SlotNo) (i : SlotNo) (st : SlotState) : (s.leaveHold n).slotIs i st = s.slotIs i st := rfl
@[simp] theorem State.leaveHold_slotSeq (s : State) (n : SlotNo) (i : SlotNo) : (s.leaveHold n).slotSeq i = s.slotSeq i := rfl
@[simp] theorem State.leaveHold_entry (s : State) (n : SlotNo) (i : EntryNo) : (s.leaveHold n).entry i = s.entry i := rfl
@[simp] theorem State.leaveHold_record (s : State) (n : SlotNo) (i : RecordNo) : (s.leaveHold n).record i = s.record i := rfl

/-! ### `makeOrder` -/

@[simp] theorem State.makeOrder_near (s : State) (n : SlotNo) (p : PendAction) : (s.makeOrder n p).near = s.near := rfl
@[simp] theorem State.makeOrder_far (s : State) (n : SlotNo) (p : PendAction) : (s.makeOrder n p).far = s.far := rfl
@[simp] theorem State.makeOrder_watch (s : State) (n : SlotNo) (p : PendAction) : (s.makeOrder n p).watch = s.watch := rfl
@[simp] theorem State.makeOrder_hold (s : State) (n : SlotNo) (p : PendAction) : (s.makeOrder n p).hold = s.hold := rfl
@[simp] theorem State.makeOrder_subst (s : State) (n : SlotNo) (p : PendAction) : (s.makeOrder n p).subst = s.subst := rfl
@[simp] theorem State.makeOrder_log (s : State) (n : SlotNo) (p : PendAction) : (s.makeOrder n p).log = s.log := rfl
@[simp] theorem State.makeOrder_time (s : State) (n : SlotNo) (p : PendAction) : (s.makeOrder n p).time = s.time := rfl
@[simp] theorem State.makeOrder_alerts (s : State) (n : SlotNo) (p : PendAction) : (s.makeOrder n p).alerts = s.alerts := rfl
@[simp] theorem State.makeOrder_ctrl (s : State) (n : SlotNo) (p : PendAction) : (s.makeOrder n p).ctrl = s.ctrl := rfl
@[simp] theorem State.makeOrder_preload (s : State) (n : SlotNo) (p : PendAction) : (s.makeOrder n p).preload = s.preload := rfl
@[simp] theorem State.makeOrder_console (s : State) (n : SlotNo) (p : PendAction) : (s.makeOrder n p).console = s.console := rfl
@[simp] theorem State.makeOrder_mem (s : State) (n : SlotNo) (p : PendAction) : (s.makeOrder n p).mem = s.mem := rfl
@[simp] theorem State.makeOrder_pending (s : State) (n : SlotNo) (p : PendAction) : (s.makeOrder n p).pending = s.pending := rfl
@[simp] theorem State.makeOrder_transit_slotM (s : State) (n : SlotNo) (p : PendAction) : (s.makeOrder n p).transit.slotM = s.transit.slotM := rfl
@[simp] theorem State.makeOrder_transit_arrivals (s : State) (n : SlotNo) (p : PendAction) : (s.makeOrder n p).transit.arrivals = s.transit.arrivals := rfl
@[simp] theorem State.makeOrder_entry (s : State) (n : SlotNo) (p : PendAction) (i : EntryNo) : (s.makeOrder n p).entry i = s.entry i := rfl
@[simp] theorem State.makeOrder_record (s : State) (n : SlotNo) (p : PendAction) (i : RecordNo) : (s.makeOrder n p).record i = s.record i := rfl

/-! ### `holdForOrder` -/

@[simp] theorem State.holdForOrder_near (s : State) (n : SlotNo) (p : PendAction) : (s.holdForOrder n p).near = s.near := rfl
@[simp] theorem State.holdForOrder_far (s : State) (n : SlotNo) (p : PendAction) : (s.holdForOrder n p).far = s.far := rfl
@[simp] theorem State.holdForOrder_watch (s : State) (n : SlotNo) (p : PendAction) : (s.holdForOrder n p).watch = s.watch := rfl
@[simp] theorem State.holdForOrder_subst (s : State) (n : SlotNo) (p : PendAction) : (s.holdForOrder n p).subst = s.subst := rfl
@[simp] theorem State.holdForOrder_log (s : State) (n : SlotNo) (p : PendAction) : (s.holdForOrder n p).log = s.log := rfl
@[simp] theorem State.holdForOrder_time (s : State) (n : SlotNo) (p : PendAction) : (s.holdForOrder n p).time = s.time := rfl
@[simp] theorem State.holdForOrder_alerts (s : State) (n : SlotNo) (p : PendAction) : (s.holdForOrder n p).alerts = s.alerts := rfl
@[simp] theorem State.holdForOrder_ctrl (s : State) (n : SlotNo) (p : PendAction) : (s.holdForOrder n p).ctrl = s.ctrl := rfl
@[simp] theorem State.holdForOrder_preload (s : State) (n : SlotNo) (p : PendAction) : (s.holdForOrder n p).preload = s.preload := rfl
@[simp] theorem State.holdForOrder_console (s : State) (n : SlotNo) (p : PendAction) : (s.holdForOrder n p).console = s.console := rfl
@[simp] theorem State.holdForOrder_mem (s : State) (n : SlotNo) (p : PendAction) : (s.holdForOrder n p).mem = s.mem := rfl
@[simp] theorem State.holdForOrder_pending (s : State) (n : SlotNo) (p : PendAction) : (s.holdForOrder n p).pending = s.pending := rfl
@[simp] theorem State.holdForOrder_transit_slotM (s : State) (n : SlotNo) (p : PendAction) : (s.holdForOrder n p).transit.slotM = s.transit.slotM := rfl
@[simp] theorem State.holdForOrder_transit_arrivals (s : State) (n : SlotNo) (p : PendAction) : (s.holdForOrder n p).transit.arrivals = s.transit.arrivals := rfl
@[simp] theorem State.holdForOrder_entry (s : State) (n : SlotNo) (p : PendAction) (i : EntryNo) : (s.holdForOrder n p).entry i = s.entry i := rfl
@[simp] theorem State.holdForOrder_record (s : State) (n : SlotNo) (p : PendAction) (i : RecordNo) : (s.holdForOrder n p).record i = s.record i := rfl

/-! ### `holdForDecision` -/

@[simp] theorem State.holdForDecision_near (s : State) (n : SlotNo) (r : HoldReason) : (s.holdForDecision n r).near = s.near := by unfold State.holdForDecision; split <;> [rfl; (dsimp only; split <;> rfl)]
@[simp] theorem State.holdForDecision_far (s : State) (n : SlotNo) (r : HoldReason) : (s.holdForDecision n r).far = s.far := by unfold State.holdForDecision; split <;> [rfl; (dsimp only; split <;> rfl)]
@[simp] theorem State.holdForDecision_watch (s : State) (n : SlotNo) (r : HoldReason) : (s.holdForDecision n r).watch = s.watch := by unfold State.holdForDecision; split <;> [rfl; (dsimp only; split <;> rfl)]
@[simp] theorem State.holdForDecision_subst (s : State) (n : SlotNo) (r : HoldReason) : (s.holdForDecision n r).subst = s.subst := by unfold State.holdForDecision; split <;> [rfl; (dsimp only; split <;> rfl)]
@[simp] theorem State.holdForDecision_log (s : State) (n : SlotNo) (r : HoldReason) : (s.holdForDecision n r).log = s.log := by unfold State.holdForDecision; split <;> [rfl; (dsimp only; split <;> rfl)]
@[simp] theorem State.holdForDecision_time (s : State) (n : SlotNo) (r : HoldReason) : (s.holdForDecision n r).time = s.time := by unfold State.holdForDecision; split <;> [rfl; (dsimp only; split <;> rfl)]
@[simp] theorem State.holdForDecision_alerts (s : State) (n : SlotNo) (r : HoldReason) : (s.holdForDecision n r).alerts = s.alerts := by unfold State.holdForDecision; split <;> [rfl; (dsimp only; split <;> rfl)]
@[simp] theorem State.holdForDecision_ctrl (s : State) (n : SlotNo) (r : HoldReason) : (s.holdForDecision n r).ctrl = s.ctrl := by unfold State.holdForDecision; split <;> [rfl; (dsimp only; split <;> rfl)]
@[simp] theorem State.holdForDecision_preload (s : State) (n : SlotNo) (r : HoldReason) : (s.holdForDecision n r).preload = s.preload := by unfold State.holdForDecision; split <;> [rfl; (dsimp only; split <;> rfl)]
@[simp] theorem State.holdForDecision_mem (s : State) (n : SlotNo) (r : HoldReason) : (s.holdForDecision n r).mem = s.mem := by unfold State.holdForDecision; split <;> [rfl; (dsimp only; split <;> rfl)]
@[simp] theorem State.holdForDecision_pending (s : State) (n : SlotNo) (r : HoldReason) : (s.holdForDecision n r).pending = s.pending := by unfold State.holdForDecision; split <;> [rfl; (dsimp only; split <;> rfl)]
@[simp] theorem State.holdForDecision_transit_slotM (s : State) (n : SlotNo) (r : HoldReason) : (s.holdForDecision n r).transit.slotM = s.transit.slotM := by unfold State.holdForDecision; split <;> [rfl; (dsimp only; split <;> rfl)]
@[simp] theorem State.holdForDecision_transit_arrivals (s : State) (n : SlotNo) (r : HoldReason) : (s.holdForDecision n r).transit.arrivals = s.transit.arrivals := by unfold State.holdForDecision; split <;> [rfl; (dsimp only; split <;> rfl)]
@[simp] theorem State.holdForDecision_entry (s : State) (n : SlotNo) (r : HoldReason) (i : EntryNo) : (s.holdForDecision n r).entry i = s.entry i := by simp only [State.entry, State.holdForDecision_watch]
@[simp] theorem State.holdForDecision_record (s : State) (n : SlotNo) (r : HoldReason) (i : RecordNo) : (s.holdForDecision n r).record i = s.record i := by simp only [State.record, State.holdForDecision_subst]

/-! ### `release` -/

@[simp] theorem State.release_near (s : State) (n : SlotNo) : (s.release n).near = s.near := rfl
@[simp] theorem State.release_watch (s : State) (n : SlotNo) : (s.release n).watch = s.watch := rfl
@[simp] theorem State.release_subst (s : State) (n : SlotNo) : (s.release n).subst = s.subst := rfl
@[simp] theorem State.release_log (s : State) (n : SlotNo) : (s.release n).log = s.log := rfl
@[simp] theorem State.release_time (s : State) (n : SlotNo) : (s.release n).time = s.time := rfl
@[simp] theorem State.release_alerts (s : State) (n : SlotNo) : (s.release n).alerts = s.alerts := rfl
@[simp] theorem State.release_ctrl (s : State) (n : SlotNo) : (s.release n).ctrl = s.ctrl := rfl
@[simp] theorem State.release_preload (s : State) (n : SlotNo) : (s.release n).preload = s.preload := rfl
@[simp] theorem State.release_console (s : State) (n : SlotNo) : (s.release n).console = s.console := rfl
@[simp] theorem State.release_mem (s : State) (n : SlotNo) : (s.release n).mem = s.mem := rfl
@[simp] theorem State.release_pending (s : State) (n : SlotNo) : (s.release n).pending = s.pending := rfl
@[simp] theorem State.release_transit_slotM (s : State) (n : SlotNo) : (s.release n).transit.slotM = s.transit.slotM := rfl
@[simp] theorem State.release_transit_arrivals (s : State) (n : SlotNo) : (s.release n).transit.arrivals = s.transit.arrivals := rfl
@[simp] theorem State.release_far_lastWinner (s : State) (n : SlotNo) : (s.release n).far.lastWinner = s.far.lastWinner := rfl
@[simp] theorem State.release_far_pulse (s : State) (n : SlotNo) : (s.release n).far.pulse = s.far.pulse := rfl
@[simp] theorem State.release_far_waiting (s : State) (n : SlotNo) : (s.release n).far.waiting = s.far.waiting := rfl
@[simp] theorem State.release_far_lastRequest (s : State) (n : SlotNo) : (s.release n).far.lastRequest = s.far.lastRequest := rfl
@[simp] theorem State.release_entry (s : State) (n : SlotNo) (i : EntryNo) : (s.release n).entry i = s.entry i := rfl
@[simp] theorem State.release_record (s : State) (n : SlotNo) (i : RecordNo) : (s.release n).record i = s.record i := rfl

/-! ### `proceed` -/

@[simp] theorem State.proceed_watch (s : State) (n : SlotNo) : (s.proceed n).watch = s.watch := by unfold State.proceed; split <;> simp
@[simp] theorem State.proceed_time (s : State) (n : SlotNo) : (s.proceed n).time = s.time := by unfold State.proceed; split <;> simp
@[simp] theorem State.proceed_alerts (s : State) (n : SlotNo) : (s.proceed n).alerts = s.alerts := by unfold State.proceed; split <;> simp
@[simp] theorem State.proceed_ctrl (s : State) (n : SlotNo) : (s.proceed n).ctrl = s.ctrl := by unfold State.proceed; split <;> simp
@[simp] theorem State.proceed_preload (s : State) (n : SlotNo) : (s.proceed n).preload = s.preload := by unfold State.proceed; split <;> simp
@[simp] theorem State.proceed_console (s : State) (n : SlotNo) : (s.proceed n).console = s.console := by unfold State.proceed; split <;> simp
@[simp] theorem State.proceed_mem (s : State) (n : SlotNo) : (s.proceed n).mem = s.mem := by unfold State.proceed; split <;> simp
@[simp] theorem State.proceed_pending (s : State) (n : SlotNo) : (s.proceed n).pending = s.pending := by unfold State.proceed; split <;> simp
@[simp] theorem State.proceed_transit_slotM (s : State) (n : SlotNo) : (s.proceed n).transit.slotM = s.transit.slotM := by unfold State.proceed; split <;> simp
@[simp] theorem State.proceed_transit_arrivals (s : State) (n : SlotNo) : (s.proceed n).transit.arrivals = s.transit.arrivals := by unfold State.proceed; split <;> simp
@[simp] theorem State.proceed_near_reset (s : State) (n : SlotNo) : (s.proceed n).near.reset = s.near.reset := by unfold State.proceed; split <;> simp
@[simp] theorem State.proceed_near_lastResponse (s : State) (n : SlotNo) : (s.proceed n).near.lastResponse = s.near.lastResponse := by unfold State.proceed; split <;> simp
@[simp] theorem State.proceed_far_lastWinner (s : State) (n : SlotNo) : (s.proceed n).far.lastWinner = s.far.lastWinner := by unfold State.proceed; split <;> simp
@[simp] theorem State.proceed_far_pulse (s : State) (n : SlotNo) : (s.proceed n).far.pulse = s.far.pulse := by unfold State.proceed; split <;> simp
@[simp] theorem State.proceed_far_waiting (s : State) (n : SlotNo) : (s.proceed n).far.waiting = s.far.waiting := by unfold State.proceed; split <;> simp
@[simp] theorem State.proceed_far_lastRequest (s : State) (n : SlotNo) : (s.proceed n).far.lastRequest = s.far.lastRequest := by unfold State.proceed; split <;> simp
@[simp] theorem State.proceed_log_counter (s : State) (n : SlotNo) : (s.proceed n).log.counter = s.log.counter := by unfold State.proceed; split <;> simp
@[simp] theorem State.proceed_log_lost (s : State) (n : SlotNo) : (s.proceed n).log.lost = s.log.lost := by unfold State.proceed; split <;> simp
@[simp] theorem State.proceed_log_mode (s : State) (n : SlotNo) : (s.proceed n).log.mode = s.log.mode := by unfold State.proceed; split <;> simp
@[simp] theorem State.proceed_entry (s : State) (n : SlotNo) (i : EntryNo) : (s.proceed n).entry i = s.entry i := by simp only [State.entry, State.proceed_watch]

/-! ### `answerHeld` -/

@[simp] theorem State.answerHeld_far (s : State) (n : SlotNo) (o : RecordOutcome) (r : Reason) (d : Option Data) : (s.answerHeld n o r d).far = s.far := by simp [State.answerHeld]
@[simp] theorem State.answerHeld_watch (s : State) (n : SlotNo) (o : RecordOutcome) (r : Reason) (d : Option Data) : (s.answerHeld n o r d).watch = s.watch := by simp [State.answerHeld]
@[simp] theorem State.answerHeld_subst (s : State) (n : SlotNo) (o : RecordOutcome) (r : Reason) (d : Option Data) : (s.answerHeld n o r d).subst = s.subst := by simp [State.answerHeld]
@[simp] theorem State.answerHeld_time (s : State) (n : SlotNo) (o : RecordOutcome) (r : Reason) (d : Option Data) : (s.answerHeld n o r d).time = s.time := by simp [State.answerHeld]
@[simp] theorem State.answerHeld_alerts (s : State) (n : SlotNo) (o : RecordOutcome) (r : Reason) (d : Option Data) : (s.answerHeld n o r d).alerts = s.alerts := by simp [State.answerHeld]
@[simp] theorem State.answerHeld_ctrl (s : State) (n : SlotNo) (o : RecordOutcome) (r : Reason) (d : Option Data) : (s.answerHeld n o r d).ctrl = s.ctrl := by simp [State.answerHeld]
@[simp] theorem State.answerHeld_preload (s : State) (n : SlotNo) (o : RecordOutcome) (r : Reason) (d : Option Data) : (s.answerHeld n o r d).preload = s.preload := by simp [State.answerHeld]
@[simp] theorem State.answerHeld_console (s : State) (n : SlotNo) (o : RecordOutcome) (r : Reason) (d : Option Data) : (s.answerHeld n o r d).console = s.console := by simp [State.answerHeld]
@[simp] theorem State.answerHeld_mem (s : State) (n : SlotNo) (o : RecordOutcome) (r : Reason) (d : Option Data) : (s.answerHeld n o r d).mem = s.mem := by simp [State.answerHeld]
@[simp] theorem State.answerHeld_pending (s : State) (n : SlotNo) (o : RecordOutcome) (r : Reason) (d : Option Data) : (s.answerHeld n o r d).pending = s.pending := by simp [State.answerHeld]
@[simp] theorem State.answerHeld_transit_slotM (s : State) (n : SlotNo) (o : RecordOutcome) (r : Reason) (d : Option Data) : (s.answerHeld n o r d).transit.slotM = s.transit.slotM := by simp [State.answerHeld]
@[simp] theorem State.answerHeld_transit_arrivals (s : State) (n : SlotNo) (o : RecordOutcome) (r : Reason) (d : Option Data) : (s.answerHeld n o r d).transit.arrivals = s.transit.arrivals := by simp [State.answerHeld]
@[simp] theorem State.answerHeld_near_reset (s : State) (n : SlotNo) (o : RecordOutcome) (r : Reason) (d : Option Data) : (s.answerHeld n o r d).near.reset = s.near.reset := by simp [State.answerHeld]
@[simp] theorem State.answerHeld_near_lastResponse (s : State) (n : SlotNo) (o : RecordOutcome) (r : Reason) (d : Option Data) : (s.answerHeld n o r d).near.lastResponse = s.near.lastResponse := by simp [State.answerHeld]
@[simp] theorem State.answerHeld_log_counter (s : State) (n : SlotNo) (o : RecordOutcome) (r : Reason) (d : Option Data) : (s.answerHeld n o r d).log.counter = s.log.counter := by simp [State.answerHeld]
@[simp] theorem State.answerHeld_log_lost (s : State) (n : SlotNo) (o : RecordOutcome) (r : Reason) (d : Option Data) : (s.answerHeld n o r d).log.lost = s.log.lost := by simp [State.answerHeld]
@[simp] theorem State.answerHeld_log_mode (s : State) (n : SlotNo) (o : RecordOutcome) (r : Reason) (d : Option Data) : (s.answerHeld n o r d).log.mode = s.log.mode := by simp [State.answerHeld]
@[simp] theorem State.answerHeld_entry (s : State) (n : SlotNo) (o : RecordOutcome) (r : Reason) (d : Option Data) (i : EntryNo) : (s.answerHeld n o r d).entry i = s.entry i := by simp only [State.entry, State.answerHeld_watch]
@[simp] theorem State.answerHeld_record (s : State) (n : SlotNo) (o : RecordOutcome) (r : Reason) (d : Option Data) (i : RecordNo) : (s.answerHeld n o r d).record i = s.record i := by simp only [State.record, State.answerHeld_subst]

/-! ### `placeForward` -/

@[simp] theorem State.placeForward_near (s : State) (n : SlotNo) : (s.placeForward n).near = s.near := by unfold State.placeForward; split <;> simp
@[simp] theorem State.placeForward_watch (s : State) (n : SlotNo) : (s.placeForward n).watch = s.watch := by unfold State.placeForward; split <;> simp
@[simp] theorem State.placeForward_subst (s : State) (n : SlotNo) : (s.placeForward n).subst = s.subst := by unfold State.placeForward; split <;> simp
@[simp] theorem State.placeForward_log (s : State) (n : SlotNo) : (s.placeForward n).log = s.log := by unfold State.placeForward; split <;> simp
@[simp] theorem State.placeForward_time (s : State) (n : SlotNo) : (s.placeForward n).time = s.time := by unfold State.placeForward; split <;> simp
@[simp] theorem State.placeForward_alerts (s : State) (n : SlotNo) : (s.placeForward n).alerts = s.alerts := by unfold State.placeForward; split <;> simp
@[simp] theorem State.placeForward_ctrl (s : State) (n : SlotNo) : (s.placeForward n).ctrl = s.ctrl := by unfold State.placeForward; split <;> simp
@[simp] theorem State.placeForward_preload (s : State) (n : SlotNo) : (s.placeForward n).preload = s.preload := by unfold State.placeForward; split <;> simp
@[simp] theorem State.placeForward_console (s : State) (n : SlotNo) : (s.placeForward n).console = s.console := by unfold State.placeForward; split <;> simp
@[simp] theorem State.placeForward_mem (s : State) (n : SlotNo) : (s.placeForward n).mem = s.mem := by unfold State.placeForward; split <;> simp
@[simp] theorem State.placeForward_pending (s : State) (n : SlotNo) : (s.placeForward n).pending = s.pending := by unfold State.placeForward; split <;> simp
@[simp] theorem State.placeForward_transit_slotM (s : State) (n : SlotNo) : (s.placeForward n).transit.slotM = s.transit.slotM := by unfold State.placeForward; split <;> simp
@[simp] theorem State.placeForward_transit_arrivals (s : State) (n : SlotNo) : (s.placeForward n).transit.arrivals = s.transit.arrivals := by unfold State.placeForward; split <;> simp
@[simp] theorem State.placeForward_far_lastWinner (s : State) (n : SlotNo) : (s.placeForward n).far.lastWinner = s.far.lastWinner := by unfold State.placeForward; split <;> simp
@[simp] theorem State.placeForward_far_pulse (s : State) (n : SlotNo) : (s.placeForward n).far.pulse = s.far.pulse := by unfold State.placeForward; split <;> simp
@[simp] theorem State.placeForward_far_waiting (s : State) (n : SlotNo) : (s.placeForward n).far.waiting = s.far.waiting := by unfold State.placeForward; split <;> simp
@[simp] theorem State.placeForward_far_lastRequest (s : State) (n : SlotNo) : (s.placeForward n).far.lastRequest = s.far.lastRequest := by unfold State.placeForward; split <;> simp
@[simp] theorem State.placeForward_entry (s : State) (n : SlotNo) (i : EntryNo) : (s.placeForward n).entry i = s.entry i := by simp only [State.entry, State.placeForward_watch]
@[simp] theorem State.placeForward_record (s : State) (n : SlotNo) (i : RecordNo) : (s.placeForward n).record i = s.record i := by simp only [State.record, State.placeForward_subst]

/-! ### `placeSubstitute` -/

@[simp] theorem State.placeSubstitute_watch (s : State) (n : SlotNo) : (s.placeSubstitute n).watch = s.watch := by unfold State.placeSubstitute; split <;> simp
@[simp] theorem State.placeSubstitute_time (s : State) (n : SlotNo) : (s.placeSubstitute n).time = s.time := by unfold State.placeSubstitute; split <;> simp
@[simp] theorem State.placeSubstitute_alerts (s : State) (n : SlotNo) : (s.placeSubstitute n).alerts = s.alerts := by unfold State.placeSubstitute; split <;> simp
@[simp] theorem State.placeSubstitute_ctrl (s : State) (n : SlotNo) : (s.placeSubstitute n).ctrl = s.ctrl := by unfold State.placeSubstitute; split <;> simp
@[simp] theorem State.placeSubstitute_preload (s : State) (n : SlotNo) : (s.placeSubstitute n).preload = s.preload := by unfold State.placeSubstitute; split <;> simp
@[simp] theorem State.placeSubstitute_console (s : State) (n : SlotNo) : (s.placeSubstitute n).console = s.console := by unfold State.placeSubstitute; split <;> simp
@[simp] theorem State.placeSubstitute_mem (s : State) (n : SlotNo) : (s.placeSubstitute n).mem = s.mem := by unfold State.placeSubstitute; split <;> simp
@[simp] theorem State.placeSubstitute_pending (s : State) (n : SlotNo) : (s.placeSubstitute n).pending = s.pending := by unfold State.placeSubstitute; split <;> simp
@[simp] theorem State.placeSubstitute_transit_slotM (s : State) (n : SlotNo) : (s.placeSubstitute n).transit.slotM = s.transit.slotM := by unfold State.placeSubstitute; split <;> simp
@[simp] theorem State.placeSubstitute_transit_arrivals (s : State) (n : SlotNo) : (s.placeSubstitute n).transit.arrivals = s.transit.arrivals := by unfold State.placeSubstitute; split <;> simp
@[simp] theorem State.placeSubstitute_near_reset (s : State) (n : SlotNo) : (s.placeSubstitute n).near.reset = s.near.reset := by unfold State.placeSubstitute; split <;> simp
@[simp] theorem State.placeSubstitute_near_lastResponse (s : State) (n : SlotNo) : (s.placeSubstitute n).near.lastResponse = s.near.lastResponse := by unfold State.placeSubstitute; split <;> simp
@[simp] theorem State.placeSubstitute_far_lastWinner (s : State) (n : SlotNo) : (s.placeSubstitute n).far.lastWinner = s.far.lastWinner := by unfold State.placeSubstitute; split <;> simp
@[simp] theorem State.placeSubstitute_far_pulse (s : State) (n : SlotNo) : (s.placeSubstitute n).far.pulse = s.far.pulse := by unfold State.placeSubstitute; split <;> simp
@[simp] theorem State.placeSubstitute_far_waiting (s : State) (n : SlotNo) : (s.placeSubstitute n).far.waiting = s.far.waiting := by unfold State.placeSubstitute; split <;> simp
@[simp] theorem State.placeSubstitute_far_lastRequest (s : State) (n : SlotNo) : (s.placeSubstitute n).far.lastRequest = s.far.lastRequest := by unfold State.placeSubstitute; split <;> simp
@[simp] theorem State.placeSubstitute_log_counter (s : State) (n : SlotNo) : (s.placeSubstitute n).log.counter = s.log.counter := by unfold State.placeSubstitute; split <;> simp
@[simp] theorem State.placeSubstitute_log_lost (s : State) (n : SlotNo) : (s.placeSubstitute n).log.lost = s.log.lost := by unfold State.placeSubstitute; split <;> simp
@[simp] theorem State.placeSubstitute_log_mode (s : State) (n : SlotNo) : (s.placeSubstitute n).log.mode = s.log.mode := by unfold State.placeSubstitute; split <;> simp
@[simp] theorem State.placeSubstitute_entry (s : State) (n : SlotNo) (i : EntryNo) : (s.placeSubstitute n).entry i = s.entry i := by simp only [State.entry, State.placeSubstitute_watch]

/-! ### `takeSettings` -/

@[simp] theorem State.takeSettings_transit (s : State) : (s.takeSettings).transit = s.transit := rfl
@[simp] theorem State.takeSettings_near (s : State) : (s.takeSettings).near = s.near := rfl
@[simp] theorem State.takeSettings_far (s : State) : (s.takeSettings).far = s.far := rfl
@[simp] theorem State.takeSettings_watch (s : State) : (s.takeSettings).watch = s.watch := rfl
@[simp] theorem State.takeSettings_hold (s : State) : (s.takeSettings).hold = s.hold := rfl
@[simp] theorem State.takeSettings_subst (s : State) : (s.takeSettings).subst = s.subst := rfl
@[simp] theorem State.takeSettings_log (s : State) : (s.takeSettings).log = s.log := rfl
@[simp] theorem State.takeSettings_time (s : State) : (s.takeSettings).time = s.time := rfl
@[simp] theorem State.takeSettings_alerts (s : State) : (s.takeSettings).alerts = s.alerts := rfl
@[simp] theorem State.takeSettings_ctrl (s : State) : (s.takeSettings).ctrl = s.ctrl := rfl
@[simp] theorem State.takeSettings_preload (s : State) : (s.takeSettings).preload = s.preload := rfl
@[simp] theorem State.takeSettings_mem (s : State) : (s.takeSettings).mem = s.mem := rfl
@[simp] theorem State.takeSettings_pending (s : State) : (s.takeSettings).pending = s.pending := rfl
@[simp] theorem State.takeSettings_slot (s : State)  (i : SlotNo) : (s.takeSettings).slot i = s.slot i := rfl
@[simp] theorem State.takeSettings_slotIs (s : State)  (i : SlotNo) (st : SlotState) : (s.takeSettings).slotIs i st = s.slotIs i st := rfl
@[simp] theorem State.takeSettings_slotSeq (s : State)  (i : SlotNo) : (s.takeSettings).slotSeq i = s.slotSeq i := rfl
@[simp] theorem State.takeSettings_entry (s : State)  (i : EntryNo) : (s.takeSettings).entry i = s.entry i := rfl
@[simp] theorem State.takeSettings_record (s : State)  (i : RecordNo) : (s.takeSettings).record i = s.record i := rfl

/-! ### `takeDueSettings` -/

@[simp] theorem State.takeDueSettings_transit (s : State) : (s.takeDueSettings).transit = s.transit := by unfold State.takeDueSettings; split <;> rfl
@[simp] theorem State.takeDueSettings_near (s : State) : (s.takeDueSettings).near = s.near := by unfold State.takeDueSettings; split <;> rfl
@[simp] theorem State.takeDueSettings_far (s : State) : (s.takeDueSettings).far = s.far := by unfold State.takeDueSettings; split <;> rfl
@[simp] theorem State.takeDueSettings_watch (s : State) : (s.takeDueSettings).watch = s.watch := by unfold State.takeDueSettings; split <;> rfl
@[simp] theorem State.takeDueSettings_hold (s : State) : (s.takeDueSettings).hold = s.hold := by unfold State.takeDueSettings; split <;> rfl
@[simp] theorem State.takeDueSettings_subst (s : State) : (s.takeDueSettings).subst = s.subst := by unfold State.takeDueSettings; split <;> rfl
@[simp] theorem State.takeDueSettings_log (s : State) : (s.takeDueSettings).log = s.log := by unfold State.takeDueSettings; split <;> rfl
@[simp] theorem State.takeDueSettings_time (s : State) : (s.takeDueSettings).time = s.time := by unfold State.takeDueSettings; split <;> rfl
@[simp] theorem State.takeDueSettings_alerts (s : State) : (s.takeDueSettings).alerts = s.alerts := by unfold State.takeDueSettings; split <;> rfl
@[simp] theorem State.takeDueSettings_ctrl (s : State) : (s.takeDueSettings).ctrl = s.ctrl := by unfold State.takeDueSettings; split <;> rfl
@[simp] theorem State.takeDueSettings_preload (s : State) : (s.takeDueSettings).preload = s.preload := by unfold State.takeDueSettings; split <;> rfl
@[simp] theorem State.takeDueSettings_mem (s : State) : (s.takeDueSettings).mem = s.mem := by unfold State.takeDueSettings; split <;> rfl
@[simp] theorem State.takeDueSettings_pending (s : State) : (s.takeDueSettings).pending = s.pending := by unfold State.takeDueSettings; split <;> rfl
@[simp] theorem State.takeDueSettings_slot (s : State)  (i : SlotNo) : (s.takeDueSettings).slot i = s.slot i := by simp only [State.slot, State.takeDueSettings_transit]
@[simp] theorem State.takeDueSettings_slotIs (s : State)  (i : SlotNo) (st : SlotState) : (s.takeDueSettings).slotIs i st = s.slotIs i st := by simp only [State.slotIs, State.slot, State.takeDueSettings_transit]
@[simp] theorem State.takeDueSettings_slotSeq (s : State)  (i : SlotNo) : (s.takeDueSettings).slotSeq i = s.slotSeq i := by simp only [State.slotSeq, State.slot, State.takeDueSettings_transit]
@[simp] theorem State.takeDueSettings_entry (s : State)  (i : EntryNo) : (s.takeDueSettings).entry i = s.entry i := by simp only [State.entry, State.takeDueSettings_watch]
@[simp] theorem State.takeDueSettings_record (s : State)  (i : RecordNo) : (s.takeDueSettings).record i = s.record i := by simp only [State.record, State.takeDueSettings_subst]

/-! ### `endLine` -/

@[simp] theorem State.endLine_transit (s : State) : (s.endLine).transit = s.transit := by simp [State.endLine]
@[simp] theorem State.endLine_near (s : State) : (s.endLine).near = s.near := by simp [State.endLine]
@[simp] theorem State.endLine_far (s : State) : (s.endLine).far = s.far := by simp [State.endLine]
@[simp] theorem State.endLine_watch (s : State) : (s.endLine).watch = s.watch := by simp [State.endLine]
@[simp] theorem State.endLine_hold (s : State) : (s.endLine).hold = s.hold := by simp [State.endLine]
@[simp] theorem State.endLine_subst (s : State) : (s.endLine).subst = s.subst := by simp [State.endLine]
@[simp] theorem State.endLine_log (s : State) : (s.endLine).log = s.log := by simp [State.endLine]
@[simp] theorem State.endLine_time (s : State) : (s.endLine).time = s.time := by simp [State.endLine]
@[simp] theorem State.endLine_alerts (s : State) : (s.endLine).alerts = s.alerts := by simp [State.endLine]
@[simp] theorem State.endLine_ctrl (s : State) : (s.endLine).ctrl = s.ctrl := by simp [State.endLine]
@[simp] theorem State.endLine_preload (s : State) : (s.endLine).preload = s.preload := by simp [State.endLine]
@[simp] theorem State.endLine_mem (s : State) : (s.endLine).mem = s.mem := by simp [State.endLine]
@[simp] theorem State.endLine_pending (s : State) : (s.endLine).pending = s.pending := by simp [State.endLine]
@[simp] theorem State.endLine_slot (s : State)  (i : SlotNo) : (s.endLine).slot i = s.slot i := by simp only [State.slot, State.endLine_transit]
@[simp] theorem State.endLine_slotIs (s : State)  (i : SlotNo) (st : SlotState) : (s.endLine).slotIs i st = s.slotIs i st := by simp only [State.slotIs, State.slot, State.endLine_transit]
@[simp] theorem State.endLine_slotSeq (s : State)  (i : SlotNo) : (s.endLine).slotSeq i = s.slotSeq i := by simp only [State.slotSeq, State.slot, State.endLine_transit]
@[simp] theorem State.endLine_entry (s : State)  (i : EntryNo) : (s.endLine).entry i = s.entry i := by simp only [State.entry, State.endLine_watch]
@[simp] theorem State.endLine_record (s : State)  (i : RecordNo) : (s.endLine).record i = s.record i := by simp only [State.record, State.endLine_subst]

/-! ### `keepOffer` -/

@[simp] theorem State.keepOffer_transit (s : State) (r : FarResponse) : (s.keepOffer r).transit = s.transit := rfl
@[simp] theorem State.keepOffer_near (s : State) (r : FarResponse) : (s.keepOffer r).near = s.near := rfl
@[simp] theorem State.keepOffer_watch (s : State) (r : FarResponse) : (s.keepOffer r).watch = s.watch := rfl
@[simp] theorem State.keepOffer_hold (s : State) (r : FarResponse) : (s.keepOffer r).hold = s.hold := rfl
@[simp] theorem State.keepOffer_subst (s : State) (r : FarResponse) : (s.keepOffer r).subst = s.subst := rfl
@[simp] theorem State.keepOffer_log (s : State) (r : FarResponse) : (s.keepOffer r).log = s.log := rfl
@[simp] theorem State.keepOffer_time (s : State) (r : FarResponse) : (s.keepOffer r).time = s.time := rfl
@[simp] theorem State.keepOffer_alerts (s : State) (r : FarResponse) : (s.keepOffer r).alerts = s.alerts := rfl
@[simp] theorem State.keepOffer_ctrl (s : State) (r : FarResponse) : (s.keepOffer r).ctrl = s.ctrl := rfl
@[simp] theorem State.keepOffer_preload (s : State) (r : FarResponse) : (s.keepOffer r).preload = s.preload := rfl
@[simp] theorem State.keepOffer_console (s : State) (r : FarResponse) : (s.keepOffer r).console = s.console := rfl
@[simp] theorem State.keepOffer_mem (s : State) (r : FarResponse) : (s.keepOffer r).mem = s.mem := rfl
@[simp] theorem State.keepOffer_pending (s : State) (r : FarResponse) : (s.keepOffer r).pending = s.pending := rfl
@[simp] theorem State.keepOffer_far_forward (s : State) (r : FarResponse) : (s.keepOffer r).far.forward = s.far.forward := rfl
@[simp] theorem State.keepOffer_far_lastWinner (s : State) (r : FarResponse) : (s.keepOffer r).far.lastWinner = s.far.lastWinner := rfl
@[simp] theorem State.keepOffer_far_pulse (s : State) (r : FarResponse) : (s.keepOffer r).far.pulse = s.far.pulse := rfl
@[simp] theorem State.keepOffer_far_lastRequest (s : State) (r : FarResponse) : (s.keepOffer r).far.lastRequest = s.far.lastRequest := rfl
@[simp] theorem State.keepOffer_slot (s : State) (r : FarResponse) (i : SlotNo) : (s.keepOffer r).slot i = s.slot i := rfl
@[simp] theorem State.keepOffer_slotIs (s : State) (r : FarResponse) (i : SlotNo) (st : SlotState) : (s.keepOffer r).slotIs i st = s.slotIs i st := rfl
@[simp] theorem State.keepOffer_slotSeq (s : State) (r : FarResponse) (i : SlotNo) : (s.keepOffer r).slotSeq i = s.slotSeq i := rfl
@[simp] theorem State.keepOffer_entry (s : State) (r : FarResponse) (i : EntryNo) : (s.keepOffer r).entry i = s.entry i := rfl
@[simp] theorem State.keepOffer_record (s : State) (r : FarResponse) (i : RecordNo) : (s.keepOffer r).record i = s.record i := rfl

/-! ### `setTx` -/

@[simp] theorem State.setTx_transit (s : State) (t : Tx) : (s.setTx t).transit = s.transit := rfl
@[simp] theorem State.setTx_near (s : State) (t : Tx) : (s.setTx t).near = s.near := rfl
@[simp] theorem State.setTx_far (s : State) (t : Tx) : (s.setTx t).far = s.far := rfl
@[simp] theorem State.setTx_watch (s : State) (t : Tx) : (s.setTx t).watch = s.watch := rfl
@[simp] theorem State.setTx_hold (s : State) (t : Tx) : (s.setTx t).hold = s.hold := rfl
@[simp] theorem State.setTx_subst (s : State) (t : Tx) : (s.setTx t).subst = s.subst := rfl
@[simp] theorem State.setTx_log (s : State) (t : Tx) : (s.setTx t).log = s.log := rfl
@[simp] theorem State.setTx_time (s : State) (t : Tx) : (s.setTx t).time = s.time := rfl
@[simp] theorem State.setTx_alerts (s : State) (t : Tx) : (s.setTx t).alerts = s.alerts := rfl
@[simp] theorem State.setTx_ctrl (s : State) (t : Tx) : (s.setTx t).ctrl = s.ctrl := rfl
@[simp] theorem State.setTx_preload (s : State) (t : Tx) : (s.setTx t).preload = s.preload := rfl
@[simp] theorem State.setTx_mem (s : State) (t : Tx) : (s.setTx t).mem = s.mem := rfl
@[simp] theorem State.setTx_pending (s : State) (t : Tx) : (s.setTx t).pending = s.pending := rfl
@[simp] theorem State.setTx_slot (s : State) (t : Tx) (i : SlotNo) : (s.setTx t).slot i = s.slot i := rfl
@[simp] theorem State.setTx_slotIs (s : State) (t : Tx) (i : SlotNo) (st : SlotState) : (s.setTx t).slotIs i st = s.slotIs i st := rfl
@[simp] theorem State.setTx_slotSeq (s : State) (t : Tx) (i : SlotNo) : (s.setTx t).slotSeq i = s.slotSeq i := rfl
@[simp] theorem State.setTx_entry (s : State) (t : Tx) (i : EntryNo) : (s.setTx t).entry i = s.entry i := rfl
@[simp] theorem State.setTx_record (s : State) (t : Tx) (i : RecordNo) : (s.setTx t).record i = s.record i := rfl

/-! ### `reply` -/

@[simp] theorem State.reply_transit (s : State) (l : Line) (ls : List Text) (b : Bool) : (s.reply l ls b).transit = s.transit := rfl
@[simp] theorem State.reply_near (s : State) (l : Line) (ls : List Text) (b : Bool) : (s.reply l ls b).near = s.near := rfl
@[simp] theorem State.reply_far (s : State) (l : Line) (ls : List Text) (b : Bool) : (s.reply l ls b).far = s.far := rfl
@[simp] theorem State.reply_watch (s : State) (l : Line) (ls : List Text) (b : Bool) : (s.reply l ls b).watch = s.watch := rfl
@[simp] theorem State.reply_hold (s : State) (l : Line) (ls : List Text) (b : Bool) : (s.reply l ls b).hold = s.hold := rfl
@[simp] theorem State.reply_subst (s : State) (l : Line) (ls : List Text) (b : Bool) : (s.reply l ls b).subst = s.subst := rfl
@[simp] theorem State.reply_log (s : State) (l : Line) (ls : List Text) (b : Bool) : (s.reply l ls b).log = s.log := rfl
@[simp] theorem State.reply_time (s : State) (l : Line) (ls : List Text) (b : Bool) : (s.reply l ls b).time = s.time := rfl
@[simp] theorem State.reply_alerts (s : State) (l : Line) (ls : List Text) (b : Bool) : (s.reply l ls b).alerts = s.alerts := rfl
@[simp] theorem State.reply_ctrl (s : State) (l : Line) (ls : List Text) (b : Bool) : (s.reply l ls b).ctrl = s.ctrl := rfl
@[simp] theorem State.reply_preload (s : State) (l : Line) (ls : List Text) (b : Bool) : (s.reply l ls b).preload = s.preload := rfl
@[simp] theorem State.reply_mem (s : State) (l : Line) (ls : List Text) (b : Bool) : (s.reply l ls b).mem = s.mem := rfl
@[simp] theorem State.reply_pending (s : State) (l : Line) (ls : List Text) (b : Bool) : (s.reply l ls b).pending = s.pending := rfl
@[simp] theorem State.reply_slot (s : State) (l : Line) (ls : List Text) (b : Bool) (i : SlotNo) : (s.reply l ls b).slot i = s.slot i := rfl
@[simp] theorem State.reply_slotIs (s : State) (l : Line) (ls : List Text) (b : Bool) (i : SlotNo) (st : SlotState) : (s.reply l ls b).slotIs i st = s.slotIs i st := rfl
@[simp] theorem State.reply_slotSeq (s : State) (l : Line) (ls : List Text) (b : Bool) (i : SlotNo) : (s.reply l ls b).slotSeq i = s.slotSeq i := rfl
@[simp] theorem State.reply_entry (s : State) (l : Line) (ls : List Text) (b : Bool) (i : EntryNo) : (s.reply l ls b).entry i = s.entry i := rfl
@[simp] theorem State.reply_record (s : State) (l : Line) (ls : List Text) (b : Bool) (i : RecordNo) : (s.reply l ls b).record i = s.record i := rfl

/-! ### `kick` -/

@[simp] theorem State.kick_transit (s : State) : (s.kick).transit = s.transit := by unfold State.kick; split <;> rfl
@[simp] theorem State.kick_near (s : State) : (s.kick).near = s.near := by unfold State.kick; split <;> rfl
@[simp] theorem State.kick_far (s : State) : (s.kick).far = s.far := by unfold State.kick; split <;> rfl
@[simp] theorem State.kick_watch (s : State) : (s.kick).watch = s.watch := by unfold State.kick; split <;> rfl
@[simp] theorem State.kick_hold (s : State) : (s.kick).hold = s.hold := by unfold State.kick; split <;> rfl
@[simp] theorem State.kick_subst (s : State) : (s.kick).subst = s.subst := by unfold State.kick; split <;> rfl
@[simp] theorem State.kick_log (s : State) : (s.kick).log = s.log := by unfold State.kick; split <;> rfl
@[simp] theorem State.kick_time (s : State) : (s.kick).time = s.time := by unfold State.kick; split <;> rfl
@[simp] theorem State.kick_alerts (s : State) : (s.kick).alerts = s.alerts := by unfold State.kick; split <;> rfl
@[simp] theorem State.kick_ctrl (s : State) : (s.kick).ctrl = s.ctrl := by unfold State.kick; split <;> rfl
@[simp] theorem State.kick_preload (s : State) : (s.kick).preload = s.preload := by unfold State.kick; split <;> rfl
@[simp] theorem State.kick_mem (s : State) : (s.kick).mem = s.mem := by unfold State.kick; split <;> rfl
@[simp] theorem State.kick_pending (s : State) : (s.kick).pending = s.pending := by unfold State.kick; split <;> rfl
@[simp] theorem State.kick_slot (s : State)  (i : SlotNo) : (s.kick).slot i = s.slot i := by simp only [State.slot, State.kick_transit]
@[simp] theorem State.kick_slotIs (s : State)  (i : SlotNo) (st : SlotState) : (s.kick).slotIs i st = s.slotIs i st := by simp only [State.slotIs, State.slot, State.kick_transit]
@[simp] theorem State.kick_slotSeq (s : State)  (i : SlotNo) : (s.kick).slotSeq i = s.slotSeq i := by simp only [State.slotSeq, State.slot, State.kick_transit]
@[simp] theorem State.kick_entry (s : State)  (i : EntryNo) : (s.kick).entry i = s.entry i := by simp only [State.entry, State.kick_watch]
@[simp] theorem State.kick_record (s : State)  (i : RecordNo) : (s.kick).record i = s.record i := by simp only [State.record, State.kick_subst]

/-! ### `abandon` -/

@[simp] theorem State.abandon_transit (s : State) (p : Party) : (s.abandon p).transit = s.transit := rfl
@[simp] theorem State.abandon_near (s : State) (p : Party) : (s.abandon p).near = s.near := rfl
@[simp] theorem State.abandon_far (s : State) (p : Party) : (s.abandon p).far = s.far := rfl
@[simp] theorem State.abandon_watch (s : State) (p : Party) : (s.abandon p).watch = s.watch := rfl
@[simp] theorem State.abandon_hold (s : State) (p : Party) : (s.abandon p).hold = s.hold := rfl
@[simp] theorem State.abandon_subst (s : State) (p : Party) : (s.abandon p).subst = s.subst := rfl
@[simp] theorem State.abandon_log (s : State) (p : Party) : (s.abandon p).log = s.log := rfl
@[simp] theorem State.abandon_time (s : State) (p : Party) : (s.abandon p).time = s.time := rfl
@[simp] theorem State.abandon_alerts (s : State) (p : Party) : (s.abandon p).alerts = s.alerts := rfl
@[simp] theorem State.abandon_ctrl (s : State) (p : Party) : (s.abandon p).ctrl = s.ctrl := rfl
@[simp] theorem State.abandon_preload (s : State) (p : Party) : (s.abandon p).preload = s.preload := rfl
@[simp] theorem State.abandon_console (s : State) (p : Party) : (s.abandon p).console = s.console := rfl
@[simp] theorem State.abandon_pending (s : State) (p : Party) : (s.abandon p).pending = s.pending := rfl
@[simp] theorem State.abandon_mem_cursorAddr (s : State) (p : Party) : (s.abandon p).mem.cursorAddr = s.mem.cursorAddr := rfl
@[simp] theorem State.abandon_mem_cursorSize (s : State) (p : Party) : (s.abandon p).mem.cursorSize = s.mem.cursorSize := rfl
@[simp] theorem State.abandon_slot (s : State) (p : Party) (i : SlotNo) : (s.abandon p).slot i = s.slot i := rfl
@[simp] theorem State.abandon_slotIs (s : State) (p : Party) (i : SlotNo) (st : SlotState) : (s.abandon p).slotIs i st = s.slotIs i st := rfl
@[simp] theorem State.abandon_slotSeq (s : State) (p : Party) (i : SlotNo) : (s.abandon p).slotSeq i = s.slotSeq i := rfl
@[simp] theorem State.abandon_entry (s : State) (p : Party) (i : EntryNo) : (s.abandon p).entry i = s.entry i := rfl
@[simp] theorem State.abandon_record (s : State) (p : Party) (i : RecordNo) : (s.abandon p).record i = s.record i := rfl

/-! ### `clearRecords` -/

@[simp] theorem State.clearRecords_near (s : State) : (s.clearRecords).near = s.near := by dsimp only [State.clearRecords]
@[simp] theorem State.clearRecords_far (s : State) : (s.clearRecords).far = s.far := by dsimp only [State.clearRecords]
@[simp] theorem State.clearRecords_watch (s : State) : (s.clearRecords).watch = s.watch := by dsimp only [State.clearRecords]
@[simp] theorem State.clearRecords_hold (s : State) : (s.clearRecords).hold = s.hold := by dsimp only [State.clearRecords]
@[simp] theorem State.clearRecords_subst (s : State) : (s.clearRecords).subst = s.subst := by dsimp only [State.clearRecords]
@[simp] theorem State.clearRecords_time (s : State) : (s.clearRecords).time = s.time := by dsimp only [State.clearRecords]
@[simp] theorem State.clearRecords_alerts (s : State) : (s.clearRecords).alerts = s.alerts := by dsimp only [State.clearRecords]
@[simp] theorem State.clearRecords_ctrl (s : State) : (s.clearRecords).ctrl = s.ctrl := by dsimp only [State.clearRecords]
@[simp] theorem State.clearRecords_preload (s : State) : (s.clearRecords).preload = s.preload := by dsimp only [State.clearRecords]
@[simp] theorem State.clearRecords_console (s : State) : (s.clearRecords).console = s.console := by dsimp only [State.clearRecords]
@[simp] theorem State.clearRecords_mem (s : State) : (s.clearRecords).mem = s.mem := by dsimp only [State.clearRecords]
@[simp] theorem State.clearRecords_pending (s : State) : (s.clearRecords).pending = s.pending := by dsimp only [State.clearRecords]
@[simp] theorem State.clearRecords_transit_slotM (s : State) : (s.clearRecords).transit.slotM = s.transit.slotM := by dsimp only [State.clearRecords]
@[simp] theorem State.clearRecords_transit_arrivals (s : State) : (s.clearRecords).transit.arrivals = s.transit.arrivals := by dsimp only [State.clearRecords]
@[simp] theorem State.clearRecords_log_counter (s : State) : (s.clearRecords).log.counter = s.log.counter := by dsimp only [State.clearRecords]
@[simp] theorem State.clearRecords_log_lost (s : State) : (s.clearRecords).log.lost = s.log.lost := by dsimp only [State.clearRecords]
@[simp] theorem State.clearRecords_log_mode (s : State) : (s.clearRecords).log.mode = s.log.mode := by dsimp only [State.clearRecords]
@[simp] theorem State.clearRecords_entry (s : State)  (i : EntryNo) : (s.clearRecords).entry i = s.entry i := by simp only [State.entry, State.clearRecords_watch]
@[simp] theorem State.clearRecords_record (s : State)  (i : RecordNo) : (s.clearRecords).record i = s.record i := by simp only [State.record, State.clearRecords_subst]

/-! ### `wipeTables` -/

@[simp] theorem State.wipeTables_transit (s : State) : (s.wipeTables).transit = s.transit := rfl
@[simp] theorem State.wipeTables_near (s : State) : (s.wipeTables).near = s.near := rfl
@[simp] theorem State.wipeTables_far (s : State) : (s.wipeTables).far = s.far := rfl
@[simp] theorem State.wipeTables_hold (s : State) : (s.wipeTables).hold = s.hold := rfl
@[simp] theorem State.wipeTables_time (s : State) : (s.wipeTables).time = s.time := rfl
@[simp] theorem State.wipeTables_ctrl (s : State) : (s.wipeTables).ctrl = s.ctrl := rfl
@[simp] theorem State.wipeTables_preload (s : State) : (s.wipeTables).preload = s.preload := rfl
@[simp] theorem State.wipeTables_console (s : State) : (s.wipeTables).console = s.console := rfl
@[simp] theorem State.wipeTables_mem (s : State) : (s.wipeTables).mem = s.mem := rfl
@[simp] theorem State.wipeTables_pending (s : State) : (s.wipeTables).pending = s.pending := rfl
@[simp] theorem State.wipeTables_log_mode (s : State) : (s.wipeTables).log.mode = s.log.mode := rfl
@[simp] theorem State.wipeTables_slot (s : State)  (i : SlotNo) : (s.wipeTables).slot i = s.slot i := rfl
@[simp] theorem State.wipeTables_slotIs (s : State)  (i : SlotNo) (st : SlotState) : (s.wipeTables).slotIs i st = s.slotIs i st := rfl
@[simp] theorem State.wipeTables_slotSeq (s : State)  (i : SlotNo) : (s.wipeTables).slotSeq i = s.slotSeq i := rfl

/-! ### `clearedState` -/

@[simp] theorem State.clearedState_transit (s : State) : (s.clearedState).transit = s.transit := by unfold State.clearedState; split <;> rfl
@[simp] theorem State.clearedState_near (s : State) : (s.clearedState).near = s.near := by unfold State.clearedState; split <;> rfl
@[simp] theorem State.clearedState_far (s : State) : (s.clearedState).far = s.far := by unfold State.clearedState; split <;> rfl
@[simp] theorem State.clearedState_watch (s : State) : (s.clearedState).watch = s.watch := by unfold State.clearedState; split <;> rfl
@[simp] theorem State.clearedState_hold (s : State) : (s.clearedState).hold = s.hold := by unfold State.clearedState; split <;> rfl
@[simp] theorem State.clearedState_subst (s : State) : (s.clearedState).subst = s.subst := by unfold State.clearedState; split <;> rfl
@[simp] theorem State.clearedState_log (s : State) : (s.clearedState).log = s.log := by unfold State.clearedState; split <;> rfl
@[simp] theorem State.clearedState_time (s : State) : (s.clearedState).time = s.time := by unfold State.clearedState; split <;> rfl
@[simp] theorem State.clearedState_alerts (s : State) : (s.clearedState).alerts = s.alerts := by unfold State.clearedState; split <;> rfl
@[simp] theorem State.clearedState_preload (s : State) : (s.clearedState).preload = s.preload := by unfold State.clearedState; split <;> rfl
@[simp] theorem State.clearedState_console (s : State) : (s.clearedState).console = s.console := by unfold State.clearedState; split <;> rfl
@[simp] theorem State.clearedState_mem (s : State) : (s.clearedState).mem = s.mem := by unfold State.clearedState; split <;> rfl
@[simp] theorem State.clearedState_pending (s : State) : (s.clearedState).pending = s.pending := by unfold State.clearedState; split <;> rfl
@[simp] theorem State.clearedState_ctrl_params (s : State) : (s.clearedState).ctrl.params = s.ctrl.params := by unfold State.clearedState; split <;> rfl
@[simp] theorem State.clearedState_ctrl_por (s : State) : (s.clearedState).ctrl.por = s.ctrl.por := by unfold State.clearedState; split <;> rfl
@[simp] theorem State.clearedState_ctrl_trigger (s : State) : (s.clearedState).ctrl.trigger = s.ctrl.trigger := by unfold State.clearedState; split <;> rfl
@[simp] theorem State.clearedState_slot (s : State)  (i : SlotNo) : (s.clearedState).slot i = s.slot i := by simp only [State.slot, State.clearedState_transit]
@[simp] theorem State.clearedState_slotIs (s : State)  (i : SlotNo) (st : SlotState) : (s.clearedState).slotIs i st = s.slotIs i st := by simp only [State.slotIs, State.slot, State.clearedState_transit]
@[simp] theorem State.clearedState_slotSeq (s : State)  (i : SlotNo) : (s.clearedState).slotSeq i = s.slotSeq i := by simp only [State.slotSeq, State.slot, State.clearedState_transit]
@[simp] theorem State.clearedState_entry (s : State)  (i : EntryNo) : (s.clearedState).entry i = s.entry i := by simp only [State.entry, State.clearedState_watch]
@[simp] theorem State.clearedState_record (s : State)  (i : RecordNo) : (s.clearedState).record i = s.record i := by simp only [State.record, State.clearedState_subst]

/-! ### `setTrigger` -/

@[simp] theorem State.setTrigger_transit (s : State) (l : Bool) : (s.setTrigger l).transit = s.transit := rfl
@[simp] theorem State.setTrigger_near (s : State) (l : Bool) : (s.setTrigger l).near = s.near := rfl
@[simp] theorem State.setTrigger_far (s : State) (l : Bool) : (s.setTrigger l).far = s.far := rfl
@[simp] theorem State.setTrigger_watch (s : State) (l : Bool) : (s.setTrigger l).watch = s.watch := rfl
@[simp] theorem State.setTrigger_hold (s : State) (l : Bool) : (s.setTrigger l).hold = s.hold := rfl
@[simp] theorem State.setTrigger_subst (s : State) (l : Bool) : (s.setTrigger l).subst = s.subst := rfl
@[simp] theorem State.setTrigger_log (s : State) (l : Bool) : (s.setTrigger l).log = s.log := rfl
@[simp] theorem State.setTrigger_time (s : State) (l : Bool) : (s.setTrigger l).time = s.time := rfl
@[simp] theorem State.setTrigger_alerts (s : State) (l : Bool) : (s.setTrigger l).alerts = s.alerts := rfl
@[simp] theorem State.setTrigger_preload (s : State) (l : Bool) : (s.setTrigger l).preload = s.preload := rfl
@[simp] theorem State.setTrigger_console (s : State) (l : Bool) : (s.setTrigger l).console = s.console := rfl
@[simp] theorem State.setTrigger_mem (s : State) (l : Bool) : (s.setTrigger l).mem = s.mem := rfl
@[simp] theorem State.setTrigger_pending (s : State) (l : Bool) : (s.setTrigger l).pending = s.pending := rfl
@[simp] theorem State.setTrigger_ctrl_params (s : State) (l : Bool) : (s.setTrigger l).ctrl.params = s.ctrl.params := rfl
@[simp] theorem State.setTrigger_ctrl_por (s : State) (l : Bool) : (s.setTrigger l).ctrl.por = s.ctrl.por := rfl
@[simp] theorem State.setTrigger_ctrl_op (s : State) (l : Bool) : (s.setTrigger l).ctrl.op = s.ctrl.op := rfl
@[simp] theorem State.setTrigger_ctrl_ret (s : State) (l : Bool) : (s.setTrigger l).ctrl.ret = s.ctrl.ret := rfl
@[simp] theorem State.setTrigger_slot (s : State) (l : Bool) (i : SlotNo) : (s.setTrigger l).slot i = s.slot i := rfl
@[simp] theorem State.setTrigger_slotIs (s : State) (l : Bool) (i : SlotNo) (st : SlotState) : (s.setTrigger l).slotIs i st = s.slotIs i st := rfl
@[simp] theorem State.setTrigger_slotSeq (s : State) (l : Bool) (i : SlotNo) : (s.setTrigger l).slotSeq i = s.slotSeq i := rfl
@[simp] theorem State.setTrigger_entry (s : State) (l : Bool) (i : EntryNo) : (s.setTrigger l).entry i = s.entry i := rfl
@[simp] theorem State.setTrigger_record (s : State) (l : Bool) (i : RecordNo) : (s.setTrigger l).record i = s.record i := rfl

/-! ### `countLine` -/

@[simp] theorem State.countLine_transit (s : State) : (s.countLine).transit = s.transit := rfl
@[simp] theorem State.countLine_near (s : State) : (s.countLine).near = s.near := rfl
@[simp] theorem State.countLine_far (s : State) : (s.countLine).far = s.far := rfl
@[simp] theorem State.countLine_watch (s : State) : (s.countLine).watch = s.watch := rfl
@[simp] theorem State.countLine_hold (s : State) : (s.countLine).hold = s.hold := rfl
@[simp] theorem State.countLine_subst (s : State) : (s.countLine).subst = s.subst := rfl
@[simp] theorem State.countLine_log (s : State) : (s.countLine).log = s.log := rfl
@[simp] theorem State.countLine_time (s : State) : (s.countLine).time = s.time := rfl
@[simp] theorem State.countLine_alerts (s : State) : (s.countLine).alerts = s.alerts := rfl
@[simp] theorem State.countLine_ctrl (s : State) : (s.countLine).ctrl = s.ctrl := rfl
@[simp] theorem State.countLine_console (s : State) : (s.countLine).console = s.console := rfl
@[simp] theorem State.countLine_mem (s : State) : (s.countLine).mem = s.mem := rfl
@[simp] theorem State.countLine_pending (s : State) : (s.countLine).pending = s.pending := rfl
@[simp] theorem State.countLine_preload_offset (s : State) : (s.countLine).preload.offset = s.preload.offset := rfl
@[simp] theorem State.countLine_preload_line (s : State) : (s.countLine).preload.line = s.preload.line := rfl
@[simp] theorem State.countLine_preload_atStart (s : State) : (s.countLine).preload.atStart = s.preload.atStart := rfl
@[simp] theorem State.countLine_preload_mosi (s : State) : (s.countLine).preload.mosi = s.preload.mosi := rfl
@[simp] theorem State.countLine_slot (s : State)  (i : SlotNo) : (s.countLine).slot i = s.slot i := rfl
@[simp] theorem State.countLine_slotIs (s : State)  (i : SlotNo) (st : SlotState) : (s.countLine).slotIs i st = s.slotIs i st := rfl
@[simp] theorem State.countLine_slotSeq (s : State)  (i : SlotNo) : (s.countLine).slotSeq i = s.slotSeq i := rfl
@[simp] theorem State.countLine_entry (s : State)  (i : EntryNo) : (s.countLine).entry i = s.entry i := rfl
@[simp] theorem State.countLine_record (s : State)  (i : RecordNo) : (s.countLine).record i = s.record i := rfl

/-! ### `negateNearReset` -/

@[simp] theorem State.negateNearReset_transit (s : State) : (s.negateNearReset).transit = s.transit := rfl
@[simp] theorem State.negateNearReset_far (s : State) : (s.negateNearReset).far = s.far := rfl
@[simp] theorem State.negateNearReset_watch (s : State) : (s.negateNearReset).watch = s.watch := rfl
@[simp] theorem State.negateNearReset_hold (s : State) : (s.negateNearReset).hold = s.hold := rfl
@[simp] theorem State.negateNearReset_subst (s : State) : (s.negateNearReset).subst = s.subst := rfl
@[simp] theorem State.negateNearReset_log (s : State) : (s.negateNearReset).log = s.log := rfl
@[simp] theorem State.negateNearReset_time (s : State) : (s.negateNearReset).time = s.time := rfl
@[simp] theorem State.negateNearReset_alerts (s : State) : (s.negateNearReset).alerts = s.alerts := rfl
@[simp] theorem State.negateNearReset_ctrl (s : State) : (s.negateNearReset).ctrl = s.ctrl := rfl
@[simp] theorem State.negateNearReset_preload (s : State) : (s.negateNearReset).preload = s.preload := rfl
@[simp] theorem State.negateNearReset_console (s : State) : (s.negateNearReset).console = s.console := rfl
@[simp] theorem State.negateNearReset_mem (s : State) : (s.negateNearReset).mem = s.mem := rfl
@[simp] theorem State.negateNearReset_pending (s : State) : (s.negateNearReset).pending = s.pending := rfl
@[simp] theorem State.negateNearReset_near_responses (s : State) : (s.negateNearReset).near.responses = s.near.responses := rfl
@[simp] theorem State.negateNearReset_near_lastResponse (s : State) : (s.negateNearReset).near.lastResponse = s.near.lastResponse := rfl
@[simp] theorem State.negateNearReset_slot (s : State)  (i : SlotNo) : (s.negateNearReset).slot i = s.slot i := rfl
@[simp] theorem State.negateNearReset_slotIs (s : State)  (i : SlotNo) (st : SlotState) : (s.negateNearReset).slotIs i st = s.slotIs i st := rfl
@[simp] theorem State.negateNearReset_slotSeq (s : State)  (i : SlotNo) : (s.negateNearReset).slotSeq i = s.slotSeq i := rfl
@[simp] theorem State.negateNearReset_entry (s : State)  (i : EntryNo) : (s.negateNearReset).entry i = s.entry i := rfl
@[simp] theorem State.negateNearReset_record (s : State)  (i : RecordNo) : (s.negateNearReset).record i = s.record i := rfl

/-! ### `tickAll` -/

@[simp] theorem State.tickAll_near (s : State) : (s.tickAll).near = s.near := by dsimp only [State.tickAll]
@[simp] theorem State.tickAll_watch (s : State) : (s.tickAll).watch = s.watch := by dsimp only [State.tickAll]
@[simp] theorem State.tickAll_hold (s : State) : (s.tickAll).hold = s.hold := by dsimp only [State.tickAll]
@[simp] theorem State.tickAll_subst (s : State) : (s.tickAll).subst = s.subst := by dsimp only [State.tickAll]
@[simp] theorem State.tickAll_log (s : State) : (s.tickAll).log = s.log := by dsimp only [State.tickAll]
@[simp] theorem State.tickAll_alerts (s : State) : (s.tickAll).alerts = s.alerts := by dsimp only [State.tickAll]
@[simp] theorem State.tickAll_ctrl (s : State) : (s.tickAll).ctrl = s.ctrl := by dsimp only [State.tickAll]
@[simp] theorem State.tickAll_preload (s : State) : (s.tickAll).preload = s.preload := by dsimp only [State.tickAll]
@[simp] theorem State.tickAll_console (s : State) : (s.tickAll).console = s.console := by dsimp only [State.tickAll]
@[simp] theorem State.tickAll_mem (s : State) : (s.tickAll).mem = s.mem := by dsimp only [State.tickAll]
@[simp] theorem State.tickAll_pending (s : State) : (s.tickAll).pending = s.pending := by dsimp only [State.tickAll]
@[simp] theorem State.tickAll_transit_arrivals (s : State) : (s.tickAll).transit.arrivals = s.transit.arrivals := by dsimp only [State.tickAll]
@[simp] theorem State.tickAll_far_forward (s : State) : (s.tickAll).far.forward = s.far.forward := by dsimp only [State.tickAll]
@[simp] theorem State.tickAll_far_lastWinner (s : State) : (s.tickAll).far.lastWinner = s.far.lastWinner := by dsimp only [State.tickAll]
@[simp] theorem State.tickAll_far_waiting (s : State) : (s.tickAll).far.waiting = s.far.waiting := by dsimp only [State.tickAll]
@[simp] theorem State.tickAll_far_lastRequest (s : State) : (s.tickAll).far.lastRequest = s.far.lastRequest := by dsimp only [State.tickAll]
@[simp] theorem State.tickAll_entry (s : State)  (i : EntryNo) : (s.tickAll).entry i = s.entry i := by simp only [State.entry, State.tickAll_watch]
@[simp] theorem State.tickAll_record (s : State)  (i : RecordNo) : (s.tickAll).record i = s.record i := by simp only [State.record, State.tickAll_subst]

/-! ### `markWinner` -/

@[simp] theorem State.markWinner_transit (s : State) (c : Contender) : (s.markWinner c).transit = s.transit := by unfold State.markWinner; split <;> rfl
@[simp] theorem State.markWinner_near (s : State) (c : Contender) : (s.markWinner c).near = s.near := by unfold State.markWinner; split <;> rfl
@[simp] theorem State.markWinner_watch (s : State) (c : Contender) : (s.markWinner c).watch = s.watch := by unfold State.markWinner; split <;> rfl
@[simp] theorem State.markWinner_hold (s : State) (c : Contender) : (s.markWinner c).hold = s.hold := by unfold State.markWinner; split <;> rfl
@[simp] theorem State.markWinner_subst (s : State) (c : Contender) : (s.markWinner c).subst = s.subst := by unfold State.markWinner; split <;> rfl
@[simp] theorem State.markWinner_log (s : State) (c : Contender) : (s.markWinner c).log = s.log := by unfold State.markWinner; split <;> rfl
@[simp] theorem State.markWinner_time (s : State) (c : Contender) : (s.markWinner c).time = s.time := by unfold State.markWinner; split <;> rfl
@[simp] theorem State.markWinner_alerts (s : State) (c : Contender) : (s.markWinner c).alerts = s.alerts := by unfold State.markWinner; split <;> rfl
@[simp] theorem State.markWinner_ctrl (s : State) (c : Contender) : (s.markWinner c).ctrl = s.ctrl := by unfold State.markWinner; split <;> rfl
@[simp] theorem State.markWinner_preload (s : State) (c : Contender) : (s.markWinner c).preload = s.preload := by unfold State.markWinner; split <;> rfl
@[simp] theorem State.markWinner_console (s : State) (c : Contender) : (s.markWinner c).console = s.console := by unfold State.markWinner; split <;> rfl
@[simp] theorem State.markWinner_mem (s : State) (c : Contender) : (s.markWinner c).mem = s.mem := by unfold State.markWinner; split <;> rfl
@[simp] theorem State.markWinner_pending (s : State) (c : Contender) : (s.markWinner c).pending = s.pending := by unfold State.markWinner; split <;> rfl
@[simp] theorem State.markWinner_far_forward (s : State) (c : Contender) : (s.markWinner c).far.forward = s.far.forward := by unfold State.markWinner; split <;> rfl
@[simp] theorem State.markWinner_far_pulse (s : State) (c : Contender) : (s.markWinner c).far.pulse = s.far.pulse := by unfold State.markWinner; split <;> rfl
@[simp] theorem State.markWinner_far_waiting (s : State) (c : Contender) : (s.markWinner c).far.waiting = s.far.waiting := by unfold State.markWinner; split <;> rfl
@[simp] theorem State.markWinner_far_lastRequest (s : State) (c : Contender) : (s.markWinner c).far.lastRequest = s.far.lastRequest := by unfold State.markWinner; split <;> rfl
@[simp] theorem State.markWinner_slot (s : State) (c : Contender) (i : SlotNo) : (s.markWinner c).slot i = s.slot i := by simp only [State.slot, State.markWinner_transit]
@[simp] theorem State.markWinner_slotIs (s : State) (c : Contender) (i : SlotNo) (st : SlotState) : (s.markWinner c).slotIs i st = s.slotIs i st := by simp only [State.slotIs, State.slot, State.markWinner_transit]
@[simp] theorem State.markWinner_slotSeq (s : State) (c : Contender) (i : SlotNo) : (s.markWinner c).slotSeq i = s.slotSeq i := by simp only [State.slotSeq, State.slot, State.markWinner_transit]
@[simp] theorem State.markWinner_entry (s : State) (c : Contender) (i : EntryNo) : (s.markWinner c).entry i = s.entry i := by simp only [State.entry, State.markWinner_watch]
@[simp] theorem State.markWinner_record (s : State) (c : Contender) (i : RecordNo) : (s.markWinner c).record i = s.record i := by simp only [State.record, State.markWinner_subst]

end Sys2Proof.Machine
end

