-- ==== Sys2Proof/Laws/Ops.lean ====
section
/-! SUPPORT. What each shared operation does, said once: how slots, entries and records read after a write, the effect of
each operation as one record update, and how the terms of Sys2Proof/Safety.lean agree with the operations of the model. -/

namespace Sys2Proof.Machine

/-! ## Events and verbs -/

/-- The end of an event is the console port settled (R175). -/
theorem State.kick_eq (s : State) : s.kick = { s with console := settle s.console } := by
  unfold State.kick settle
  split <;> rfl

/-- An event taken with POR_N negated has its effect, and then the transmitter chooses. -/
theorem State.event_running {s : State} (h : s.running) (f : State → State) :
    s.event f = .next { f s with console := settle (f s).console } := by
  have hp : s.ctrl.por = false := h
  simp [State.event, hp, State.kick_eq]

/-- An event while POR_N is asserted is not taken (R193). -/
theorem State.event_por {s : State} (h : s.ctrl.por = true) (f : State → State) : s.event f = .next s := by
  simp [State.event, h]

/-- A verb's row is the arrival of its line. -/
theorem exec_verbRow (v : Verb) (src : Source) (ops : List Token) (s : State) :
    exec (verbRow v src ops) s = s.event (fun s => s.command v src ops) := by
  cases v <;> rfl

/-! ## Reading after writing -/

theorem State.slot_setSlot (s : State) (n m : SlotNo) (a : Option Access) :
    (s.setSlot n a).slot m = if n = m then a else s.slot m := by
  simp [State.slot, State.setSlot, Vector.getElem_set, Fin.ext_iff]

@[simp] theorem State.slot_setSlot_same (s : State) (n : SlotNo) (a : Option Access) : (s.setSlot n a).slot n = a := by
  simp [State.slot_setSlot]

theorem State.slot_setSlot_ne (s : State) {n m : SlotNo} (a : Option Access) (h : n ≠ m) :
    (s.setSlot n a).slot m = s.slot m := by
  simp [State.slot_setSlot, h]

theorem State.slot_modSlot (s : State) (n m : SlotNo) (f : Access → Access) :
    (s.modSlot n f).slot m = if n = m then (s.slot n).map f else s.slot m := by
  simp [State.modSlot, State.slot_setSlot]

@[simp] theorem State.slot_modSlot_same (s : State) (n : SlotNo) (f : Access → Access) :
    (s.modSlot n f).slot n = (s.slot n).map f := by
  simp [State.slot_modSlot]

@[simp] theorem State.slot_setSlotM (s : State) (m : Option MAccess) (n : SlotNo) : (s.setSlotM m).slot n = s.slot n := rfl

theorem State.entry_setEntry (s : State) (n m : EntryNo) (e : WatchEntry) :
    (s.setEntry n e).entry m = if n = m then e else s.entry m := by
  simp [State.entry, State.setEntry, Vector.getElem_set, Fin.ext_iff]

theorem State.record_setRecord (s : State) (n m : RecordNo) (r : SubstRecord) :
    (s.setRecord n r).record m = if n = m then r else s.record m := by
  simp [State.record, State.setRecord, Vector.getElem_set, Fin.ext_iff]

@[simp] theorem State.entry_entriesOff (s : State) (n : EntryNo) : s.entriesOff.entry n = WatchEntry.offValue := by
  simp [State.entry, State.entriesOff]

@[simp] theorem State.record_recordsInvalid (s : State) (n : RecordNo) :
    s.recordsInvalid.record n = { s.record n with valid := false } := by
  simp [State.record, State.recordsInvalid]

@[simp] theorem State.entry_judgeEntries (s : State) (j : Judged) (n : EntryNo) :
    (s.judgeEntries j).entry n = judgedEntry (s.entry n) j (s.firedEntries j) := by
  simp [State.entry, State.judgeEntries]

@[simp] theorem State.slot_tickAll (s : State) (n : SlotNo) :
    s.tickAll.slot n = (s.slot n).map (tickSlot (s.ctrl.op == .frozen)) := by
  simp [State.slot, State.tickAll]

@[simp] theorem State.slot_clearRecords (s : State) (n : SlotNo) :
    s.clearRecords.slot n = (s.slot n).map (fun a => { a with logSeq := none }) := by
  simp [State.slot, State.clearRecords]

/-! ## The operations on slots and queues as record updates -/

/-- An answered slot is ANSWERING and its entry stands at the tail of the near response queue (R10, R58). -/
theorem State.answerSlot_eq {s : State} {n : SlotNo} {a : Access} {t : NearTag} (r : Reason) (d : Option Data)
    (ha : s.slot n = some a) (ht : a.tag = some t) :
    s.answerSlot n r d = { s with
      transit := { s.transit with
        slots := s.transit.slots.set n (some { a.released with state := .answering, farTimer := none }) }
      near := { s.near with
        responses := s.near.responses ++ [{ tag := t, reason := r, data := d, slot := some n }] } } := by
  unfold State.answerSlot
  rw [ha]
  simp only [ht]
  rfl

/-- A forwarded slot is QUEUED and stands at the tail of the forward queue (R12). -/
theorem State.forwardSlot_eq {s : State} {n : SlotNo} {a : Access} (ha : s.slot n = some a) :
    s.forwardSlot n = { s with
      transit := { s.transit with slots := s.transit.slots.set n (some { a.released with state := .queued }) }
      far := { s.far with forward := s.far.forward ++ [n] } } := by
  unfold State.forwardSlot State.modSlot
  rw [ha]
  rfl

/-- A slot that names no record closes none (R107). -/
theorem State.closeRecord_none {s : State} {n : SlotNo} (o : RecordOutcome) (r : Option Reason) (d : Option Data)
    (h : s.slotSeq n = none) : s.closeRecord n o r d = s := by
  unfold State.closeRecord
  rw [h]

/-- Closing a slot's record: the log closes it and the slot loses its number (R107). -/
theorem State.closeRecord_eq {s : State} {n : SlotNo} {a : Access} (o : RecordOutcome) (r : Reason) (d : Option Data)
    (ha : s.slot n = some a) :
    s.closeRecord n o (some r) d = { s with
      transit := { s.transit with slots := s.transit.slots.set n (some { a with logSeq := none }) }
      log := logClosed s.log a.logSeq o r d } := by
  unfold State.closeRecord State.slotSeq
  rw [ha]
  cases hq : a.logSeq with
  | none =>
    have hs : s.transit.slots.set n (some { a with logSeq := none }) = s.transit.slots := by
      have : (some { a with logSeq := none } : Option Access) = s.transit.slots[n] := by
        rw [show s.transit.slots[n] = s.slot n from rfl, ha, ← hq]
      rw [this]
      exact Vector.set_getElem_self ..
    simp only [Option.bind_some, hq, logClosed]
    rw [hs]
  | some q =>
    simp only [Option.bind_some, hq, State.modSlot, ha, logClosed]
    rfl

/-- Marking a slot's record (R106). -/
theorem State.markRecord_eq {s : State} {n : SlotNo} {a : Access} (m : PathMark) (ha : s.slot n = some a) :
    s.markRecord n m = { s with log := logMarked s.log a.logSeq m } := by
  unfold State.markRecord State.slotSeq
  rw [ha]
  cases hq : a.logSeq with
  | none => simp only [Option.bind_some, hq, logMarked]
  | some q => simp only [Option.bind_some, hq, logMarked]; rfl

/-- A slot held for a decision joins the tail of the hold queue with its timer loaded, and `^HD` is raised (R57, R65). -/
theorem State.holdForDecision_eq {s : State} {n : SlotNo} {a : Access} {t : NearTag} (r : HoldReason)
    (ha : s.slot n = some a) (ht : a.tag = some t) :
    s.holdForDecision n r = { s with
      transit := { s.transit with slots := s.transit.slots.set n (some { a with
        state := .held, holdReason := some r, holdTimer := loaded s.ctrl.params.holdLimit, pendAction := none }) }
      hold := s.hold ++ [n]
      console := offerNotice s.ctrl.params.quiet (.hd n t a.owner a.addr) s.console } := by
  unfold State.holdForDecision
  rw [ha]
  simp only [ht]
  rfl

/-- A slot held by the order guard joins the tail of the hold queue without a timer (R56, R60). -/
theorem State.holdForOrder_eq {s : State} {n : SlotNo} {a : Access} (p : PendAction) (ha : s.slot n = some a) :
    s.holdForOrder n p = { s with
      transit := { s.transit with slots := s.transit.slots.set n (some { a with
        state := .held, holdReason := some .order, holdTimer := none, pendAction := some p }) }
      hold := s.hold ++ [n] } := by
  unfold State.holdForOrder State.makeOrder State.modSlot
  rw [ha]
  rfl

/-- The slot of a release leaves the hold queue for the tail of the forward queue (R58, R61). -/
theorem State.release_eq {s : State} {n : SlotNo} {a : Access} (ha : s.slot n = some a) :
    s.release n = { s with
      hold := s.hold.filter (fun m => m != n)
      transit := { s.transit with slots := s.transit.slots.set n (some (left a .queued)) }
      far := { s.far with forward := s.far.forward ++ [n] } } := by
  unfold State.release
  rw [State.forwardSlot_eq (s := s.leaveHold n) (a := a) ha]
  rfl

/-- A held slot that is answered leaves the hold queue, its record is closed, its entry is appended (R58). -/
theorem State.answerHeld_eq {s : State} {n : SlotNo} {a : Access} {t : NearTag} (o : RecordOutcome) (r : Reason)
    (d : Option Data) (ha : s.slot n = some a) (ht : a.tag = some t) :
    s.answerHeld n o r d = { s with
      hold := s.hold.filter (fun m => m != n)
      transit := { s.transit with slots := s.transit.slots.set n (some (answered a)) }
      near := { s.near with
        responses := s.near.responses ++ [{ tag := t, reason := r, data := d, slot := some n }] }
      log := logClosed s.log a.logSeq o r d } := by
  unfold State.answerHeld
  rw [State.closeRecord_eq (s := s.leaveHold n) (a := a) o r d ha]
  rw [State.answerSlot_eq (a := { a with logSeq := none }) (t := t) r d (by simp [State.slot]) ht]
  simp [answered, left, Access.released, State.leaveHold, Vector.set_set]

/-! ## The console port -/

/-- Raising a list of notices in order (R171). -/
theorem State.raise_console (s : State) (n : Notice) : (s.raise n).console = offerNotice s.ctrl.params.quiet n s.console := rfl

/-- The parts of the console port that offering notices leaves as they are. -/
theorem offerNotice_tx (q : Bool) (n : Notice) (c : Console) : (offerNotice q n c).tx = c.tx := by
  unfold offerNotice
  split <;> [rfl; (split <;> rfl)]

theorem offerNotice_inService (q : Bool) (n : Notice) (c : Console) : (offerNotice q n c).inService = c.inService := by
  unfold offerNotice
  split <;> [rfl; (split <;> rfl)]

theorem offerNotice_response (q : Bool) (n : Notice) (c : Console) : (offerNotice q n c).response = c.response := by
  unfold offerNotice
  split <;> [rfl; (split <;> rfl)]

/-! ## Substitution -/

/-- A hit leaves its record as `afterHit` says (R91 to R93). -/
theorem hitEffect_eq (r : SubstRecord) (a : Access) : hitEffect r a = afterHit r a := by
  have h (c : Count) : satInc c = if c = 0xFFFF then 0xFFFF else c + 1 := by
    unfold satInc
    split <;> simp_all
  unfold hitEffect afterHit
  rw [← h]
  cases a.cls <;> rfl

/-- A hit gives a read class the record's bytes and a STORE nothing (R91, R92). -/
theorem hitData_eq (r : SubstRecord) (a : Access) : hitData r a = readData a.cls (r.read a.addr a.size) := by
  unfold hitData readData
  cases a.cls <;> rfl

/-- The record that the model finds is the one that R89 says is hit. -/
theorem State.hitRecord_iff (s : State) (a : Access) (k : RecordNo) : s.hitRecord a = some k ↔ Hits s a k := by
  unfold State.hitRecord State.namedRecord Hits SubstRecord.covers
  cases a.owner with
  | none => simp
  | some e =>
    simp only [Option.filter_eq_some_iff, Bool.and_eq_true, decide_eq_true_eq, Option.some.injEq, exists_eq_left']
    split <;> rename_i h <;> simp [h]

/-! ## Line settings and offers that wait -/

/-- The end of a line sent is the console port between two lines. -/
theorem State.endLine_eq (s : State) : s.endLine = { s with console := lineEnded s } := by
  unfold State.endLine State.takeDueSettings State.takeSettings lineEnded
  cases h : s.console.settingsDue <;> simp [h]

/-- R153: the data bits hold an odd number of ones exactly when their exclusive or is 1. -/
theorem oddOnes_eq (b : Byte) : oddOnes b = decide (onesOf b % 2 = 1) := by revert b; decide

/-- R153: the frame of a byte, bit by bit. -/
theorem frameBits_eq (p : Parity) (b : Byte) : frameBits p b = frameOf p b := by
  have h : decide (onesOf b % 2 = 0) = !oddOnes b := by
    rw [oddOnes_eq]
    rcases Nat.mod_two_eq_zero_or_one (onesOf b) with h | h <;> simp [h]
  cases p <;> simp [frameBits, frameOf, parityLevel, List.range, List.range.loop, oddOnes_eq, h]

/-- Taking new settings into use leaves those of a line being sent (R174, R176). -/
theorem State.takeSettings_txSettings (s : State) (h : s.console.tx ≠ .idle) :
    s.takeSettings.console.txSettings = s.console.txSettings := by
  simp [State.takeSettings, Console.txSettings, h]

/-- A break leaves what TXD carries for the line being sent, whatever it does to the settings in use. -/
theorem State.takeSettings_txdRate (s : State) (h : s.console.tx ≠ .idle) : s.takeSettings.txdRate = s.txdRate := by
  rw [State.txdRate, State.takeSettings_txSettings s h, State.txdRate]

/-- With no offer that waits there is nothing to take. -/
theorem State.takeWaiting_nil {s : State} (h : s.far.waiting = []) : s.takeWaiting = s := by
  obtain ⟨_, _, ⟨_, _, _, _, _⟩, _, _, _, _, _, _, _, _, _, _, _⟩ := s
  subst h
  rfl

/-- With one offer that waits, it is taken as a response that is offered then. -/
theorem State.takeWaiting_one {s : State} {r : FarResponse} (h : s.far.waiting = [r]) :
    s.takeWaiting = ({ s with far := { s.far with waiting := [] } }).offerFarResponse r := by
  simp [State.takeWaiting, h]

/-! ## Acceptance -/

/-- The model's test for a live near tag is R2's. -/
theorem State.live_iff (s : State) (t : NearTag) : s.live t = true ↔ TagLive s t := by
  unfold State.live TagLive
  simp only [Bool.or_eq_true, List.any_eq_true, allSixteen, List.mem_finRange, true_and, Option.any_eq_true,
    Bool.and_eq_true, beq_iff_eq]
  refine or_congr ?_ Iff.rfl
  have hcar : ∀ st : SlotState, carriesTag st = true ↔ (st = .held ∨ st = .queued ∨ st = .issued) := by
    intro st
    cases st <;> decide
  simp only [hcar]

/-- The slot that a taken request goes to is the one the model chooses (R3). -/
theorem State.freeSlot_of_takes {s : State} {req : NearRequest} {n : SlotNo} (h : Takes s req n) : s.freeSlot = some n := by
  unfold State.freeSlot allSixteen
  rw [List.find?_eq_some_iff_getElem]
  refine ⟨by simp [h.slot], n.val, by simp, by simp, ?_⟩
  intro j hj
  have hm := h.lowest ⟨j, by omega⟩ (by simpa [Fin.lt_def] using hj)
  simp only [List.getElem_finRange, Fin.cast_mk, Bool.not_eq_eq_eq_not, Bool.not_true]
  cases hs : s.slot ⟨j, by omega⟩ with
  | none => exact absurd hs hm
  | some a => rfl

/-- A taken request passes the four conditions of R1. -/
theorem State.mayAccept_of_takes {s : State} {req : NearRequest} {n : SlotNo} (h : Takes s req n) :
    s.mayAccept req = true := by
  have hl : s.live req.tag = false := by
    rw [Bool.eq_false_iff]
    exact fun hc => h.tag ((s.live_iff _).mp hc)
  have ho : (s.ctrl.op == OpState.gated) = false := by
    have := h.opened
    cases hc : s.ctrl.op <;> simp_all
  simp [State.mayAccept, State.freeSlot_of_takes h, hl, h.noReset, ho]

/-- The acceptance of a request that is taken. -/
theorem exec_acceptance_takes {s : State} {req : NearRequest} {n : SlotNo} (h : Takes s req n) :
    exec (.acceptance req) s =
      .next { s.accept n req with console := settle (s.accept n req).console } := by
  show s.event (fun s => s.offerRequest req) = _
  rw [State.event_running h.runs]
  simp [State.offerRequest, State.mayAccept_of_takes h, State.freeSlot_of_takes h]

/-- The order guard's check at placement is R60's, when the slot being placed holds no held access. -/
theorem State.blockedAtPlacement_iff {s : State} {n : SlotNo} {a : Access} (ha : s.slot n = some a) :
    s.blockedAtPlacement n = false ↔ Unblocked s a := by
  have hb : ∀ m, (s.slot m).any (fun b => b.state == .held && conflict b a) = true ↔ Blocks s m a := by
    intro m
    unfold Blocks
    rw [Option.any_eq_true]
    refine exists_congr (fun b => and_congr_right (fun _ => ?_))
    simp only [conflict, rangesMeet, Bool.and_eq_true, Bool.or_eq_true, beq_iff_eq, decide_eq_true_eq]
    tauto
  rw [Bool.eq_false_iff]
  simp only [State.blockedAtPlacement, ha, Option.any_some, State.blockedBy, List.any_eq_true, hb, Unblocked, ne_eq,
    not_exists, not_and]

/-! ## Judgement -/

/-- The model's match is R30's and R31's. -/
theorem entryMatches_iff (e : WatchEntry) (req : NearRequest) : entryMatches e (judgedOf req) = true ↔ Matches e req := by
  have hc : condMatches e.cond (judgedOf req) = true ↔
      ∀ c, e.cond = some c → req.cls = .store ∧ maskData req.size req.lanes &&& c.mask = c.value &&& c.mask := by
    unfold condMatches judgedOf requestData
    cases hcond : e.cond with
    | none => simp
    | some c => cases hcl : req.cls <;> simp [condHolds]
  constructor
  · intro h
    simp only [entryMatches, Bool.and_eq_true, hc, beq_iff_eq, inWindow, decide_eq_true_eq] at h
    exact ⟨h.1.1.1, h.1.1.2, h.1.2.1, h.1.2.2, h.2⟩
  · intro h
    simp only [entryMatches, Bool.and_eq_true, hc, beq_iff_eq, inWindow, decide_eq_true_eq]
    exact ⟨⟨⟨h.armed, h.cls⟩, h.below, h.above⟩, h.cond⟩

/-- The model's firing is R32's. -/
theorem entryFires_iff (e : WatchEntry) (req : NearRequest) : entryFires e (judgedOf req) = true ↔ Fires e req := by
  simp [entryFires, Fires, entryMatches_iff]

/-- The fired entries of the model are those that fire. -/
theorem State.mem_firedEntries (s : State) (req : NearRequest) (k : EntryNo) :
    k ∈ s.firedEntries (judgedOf req) ↔ Fires (s.entry k) req := by
  simp [State.firedEntries, allSixteen, entryFires_iff]

/-- The model's winning action and owner are R38's. -/
theorem State.winning_of_owns {s : State} {req : NearRequest} {o : EntryNo} {a : Action} (h : Owns s req o a) :
    s.winning (s.firedEntries (judgedOf req)) = some a ∧ s.ownerOf (s.firedEntries (judgedOf req)) = some o := by
  have hw : s.winning (s.firedEntries (judgedOf req)) = some a := by
    have hself : (s.firedEntries (judgedOf req)).any (fun n => (s.entry n).action == some a) = true := by
      rw [List.any_eq_true]
      exact ⟨o, (s.mem_firedEntries req o).mpr h.fires, by simp [h.action]⟩
    have hstr : ∀ b, strength a < strength b →
        (s.firedEntries (judgedOf req)).any (fun n => (s.entry n).action == some b) = false := by
      intro b hb
      rw [List.any_eq_false]
      intro k hk
      have hf := (s.mem_firedEntries req k).mp hk
      intro hc
      rw [beq_iff_eq] at hc
      rcases h.wins k b hf hc with hlt | ⟨heq, _⟩ <;> omega
    unfold State.winning actionsByStrength
    cases a with
    | freeze => simp only [List.find?_cons, hself]
    | hold => simp only [List.find?_cons, hself, hstr .freeze (by decide)]
    | subst => simp only [List.find?_cons, hself, hstr .freeze (by decide), hstr .hold (by decide)]
    | note =>
      simp only [List.find?_cons, hself, hstr .freeze (by decide), hstr .hold (by decide), hstr .subst (by decide)]
    | pass =>
      simp only [List.find?_cons, hself, hstr .freeze (by decide), hstr .hold (by decide), hstr .subst (by decide),
        hstr .note (by decide)]
  refine ⟨hw, ?_⟩
  unfold State.ownerOf
  rw [hw]
  simp only
  rw [List.find?_eq_some_iff_append]
  refine ⟨by simp [h.action], ?_⟩
  obtain ⟨l₁, l₂, hl⟩ := List.append_of_mem ((s.mem_firedEntries req o).mpr h.fires)
  refine ⟨l₁, l₂, hl, ?_⟩
  intro m hm
  have hsorted : (s.firedEntries (judgedOf req)).Pairwise (fun x y => x < y) := by
    unfold State.firedEntries allSixteen
    exact (List.pairwise_lt_finRange 16).filter _
  rw [hl] at hsorted
  have hlt : m < o := (List.pairwise_append.mp hsorted).2.2 m hm o (by simp)
  have hmem : m ∈ s.firedEntries (judgedOf req) := by rw [hl]; simp [hm]
  have hf := (s.mem_firedEntries req m).mp hmem
  simp only [Bool.not_eq_eq_eq_not, Bool.not_true, beq_eq_false_iff_ne, ne_eq]
  intro hc
  rcases h.wins m a hf hc with hl | ⟨_, hle⟩
  · omega
  · exact absurd hlt (by simpa using hle)

end Sys2Proof.Machine
end

