-- ==== Sys2Proof/Laws/Verbs.lean ====
section
/-! SUPPORT. What the arrival of a verb's line does, said once for all verbs: with the verb's own rule evaluated, the line is
accepted or refused as `Accepted` and `Refused` say. -/

namespace Sys2Proof.Machine

/-- The rule of a verb on operands that the grammar passes (R163, test 7). -/
theorem runVerb_of_read {ops : List Token} {o : Operands} (h : readOperands ops = some o) (v : Verb) (src : Source)
    (s : State) : runVerb v src ops s = verbRule v src o s := by
  unfold runVerb
  rw [h]

/-- The console line of a verb on a ready console. -/
theorem exec_console {s : State} (h : Ready s) (v : Verb) (ops : List Token) :
    exec (verbRow v .console ops) s =
      .next { answerLine (lineOf v ops) (runVerb v .console ops s) with
        console := settle (answerLine (lineOf v ops) (runVerb v .console ops s)).console } := by
  have hc : ({ s with console := { s.console with overrun := false } } : State) = s := by
    have := h.clean
    rcases s with ⟨_, _, _, _, _, _, _, _, _, _, _, c, _, _⟩
    rcases c with ⟨_, _, _, o, _, _, _, _, _, _, _, _⟩
    simp only at this
    subst this
    rfl
  have hu : s.consoleCommand v ops = answerLine (lineOf v ops) (runVerb v .console ops s) := by
    unfold State.consoleCommand
    simp only
    rw [if_pos (by rw [h.free]; rfl), hc]
    unfold State.serveUnless
    rw [if_neg h.opened, if_neg (by rw [h.clean]; exact Bool.false_ne_true), h.clean]
    rfl
  rw [exec_verbRow, State.event_running h.runs, ← hu]
  rfl

/-- The preload line of a verb while the port reads. -/
theorem exec_preload {s : State} (h : Serves s .preload) (v : Verb) (ops : List Token) :
    exec (verbRow v .preload ops) s =
      .next { preloadDone (runVerb v .preload ops s) with
        console := settle (preloadDone (runVerb v .preload ops s)).console } := by
  rw [exec_verbRow, State.event_running h.1]
  simp [State.command, State.preloadCommand, State.preloading, h.2.1, h.2.2]

/-- Offering notices to the queue changes the queue and its count alone. -/
theorem offerNotice_rest (q : Bool) (n : Notice) (c : Console) :
    offerNotice q n c =
      { c with notices := (offerNotice q n c).notices, noticesLost := (offerNotice q n c).noticesLost } := by
  unfold offerNotice
  split
  · rfl
  · split <;> rfl

theorem offerAll_rest (s : State) (ns : List Notice) :
    offerAll s ns = { s.console with notices := (offerAll s ns).notices, noticesLost := (offerAll s ns).noticesLost } := by
  unfold offerAll
  generalize s.console = c
  induction ns generalizing c with
  | nil => rfl
  | cons n ns ih =>
    rw [List.foldl_cons, ih, offerNotice_rest]

/-- The reply to the line IN SERVICE, settled, is that line's answer (R167, R170, R175). -/
theorem answered_of_reply {s u t : State} {l : Line} {ns : List Notice} {x : Text} {xs : List Text} {b : Bool}
    (hn : sendingResponse s.console = false) (hu : u.console = offerAll s ns)
    (ht : t.console = settle { u.console with
      inService := some { line := l, stage := .responding, settings := b }, response := some (x :: xs) }) :
    Answered s t l ns (x :: xs) b := by
  rw [hu, offerAll_rest] at ht
  cases htx : s.console.tx with
  | response y => simp [sendingResponse, htx] at hn
  | idle =>
    simp only [settle, htx, if_true, chooseLine] at ht
    constructor <;> simp [ht, State.replyLines]
  | notice y =>
    simp only [settle, htx, reduceCtorEq, if_false] at ht
    constructor <;> simp [ht, State.replyLines]
  | lost y z =>
    simp only [settle, htx, reduceCtorEq, if_false] at ht
    constructor <;> simp [ht, State.replyLines]

/-- A verb whose rule accepts the line with a plain answer, from either source, while the state that it leaves is still
GATED for a preload line. -/
theorem exec_accepted {s u : State} {src : Source} {v : Verb} {ops : List Token} {ns : List Notice} {x : Text}
    {xs : List Text} (h : Serves s src) (hr : runVerb v src ops s = (u, .lines (x :: xs)))
    (hc : u.console = offerAll s ns) (hp : u.preload = s.preload) (hg : src = .preload → u.ctrl.op = .gated) :
    ∃ t, exec (verbRow v src ops) s = .next t ∧ t = { u with console := t.console, preload := t.preload } ∧
      Accepted s t src v ops ns (x :: xs) := by
  cases src with
  | console =>
    have h : Ready s := h
    refine ⟨_, exec_console h v ops, ?_, ?_, ?_⟩
    · rw [hr]; simp [answerLine, State.reply]
    · refine answered_of_reply (u := u) h.noReply hc ?_
      rw [hr]; simp [answerLine, State.reply]
    · rw [hr]; simp [answerLine, State.reply, hp]
  | preload =>
    have hg := hg rfl
    refine ⟨_, exec_preload h v ops, ?_, ?_, ?_⟩ <;>
      rw [hr] <;>
      simp [preloadDone, State.preloadCounted, State.preloading, State.countLine, hg, hc, hp, consoleAfter]

/-- A preload error end from a state in which no preload line waits for an access. -/
theorem preloadFail_eq {s : State} (h : s.preloadWaits = false) (c : Code) :
    ({ s.preloadFail c with console := settle (s.preloadFail c).console } : State) = preloadErrorEnd s c := by
  have hm : s.mem.inHand.map (fun h => if h.party = .preload then { h with party := .nobody } else h) = s.mem.inHand := by
    cases hi : s.mem.inHand with
    | none => rfl
    | some k =>
      have : k.party ≠ .preload := by
        intro hk
        simp [State.preloadWaits, hi, hk] at h
      simp [this]
  unfold State.preloadFail preloadErrorEnd consoleAfter offerAll
  simp only [State.abandon, State.enter, State.recordsInvalid, State.entriesOff, State.raise, Preload.lineStart,
    Assembly.empty, List.foldl_cons, List.foldl_nil]
  rw [hm]
  rfl

/-- A verb whose rule refuses the line, from either source. -/
theorem exec_refused {s : State} {src : Source} {v : Verb} {ops : List Token} {c : Code} (h : Serves s src)
    (hr : runVerb v src ops s = (s, .refused c)) :
    ∃ t, exec (verbRow v src ops) s = .next t ∧ Refused s t src v ops c := by
  cases src with
  | console =>
    have h : Ready s := h
    refine ⟨_, exec_console h v ops, ?_, ?_⟩
    · rw [hr]; simp [answerLine, State.reply]
    · refine answered_of_reply (u := s) h.noReply rfl ?_
      rw [hr]; simp [answerLine, State.reply]
  | preload =>
    refine ⟨_, exec_preload h v ops, ?_⟩
    rw [hr]
    exact preloadFail_eq h.2.2 c

end Sys2Proof.Machine
end

