-- ==== Sys2Proof/Tests/Slice0.lean ====
section
/-! SUPPORT. Tests of the model on the manual's own examples, the smoke test of WellFormed, and, for every statement that has
hypotheses, a witness theorem: concrete states and operands that meet the hypotheses of each of its clauses. -/

namespace Sys2Proof.Machine.Tests

/-! ## Small states -/

/-- A running part in an operating state, everything else at its power-on value. -/
def up (o : OpState) : State :=
  { State.reset with
    ctrl := { State.reset.ctrl with op := o, ret := if o = .frozen then some .watch else none, por := false } }

/-- The state that a command leaves. -/
def after (c : Instr) (s : State) : State :=
  match exec c s with
  | .next t => t
  | .fault _ => s
  | .refused _ => s

/-- A request of the near link. -/
def req (t : NearTag) (c : AccClass) (a : Nat) (z : Size) (d : Nat := 0) : NearRequest :=
  { tag := t, cls := c, addr := BitVec.ofNat 32 a, size := z, lanes := BitVec.ofNat 64 d }

/-- The content of a traffic slot, without timers and hold fields. -/
def item (st : SlotState) (c : AccClass) (a : Nat) (z : Size) : Access where
  state      := st
  tag        := if st = .orphan then none else some 7
  cls        := c
  addr       := BitVec.ofNat 32 a
  size       := z
  data       := if c = .store then some 0 else none
  arrival    := 0xFFFFFFFF
  disp       := .forward
  owner      := none
  logSeq     := none
  holdReason := none
  holdTimer  := none
  pendAction := none
  farTimer   := none

/-- A held access with a reason. -/
def heldItem (r : HoldReason) (c : AccClass) (a : Nat) (z : Size) (timer : Option Count := none) : Access :=
  { item .held c a z with
    holdReason := some r, holdTimer := timer, pendAction := if r = .order then some .forward else none }

/-- One slot with this content. -/
def one (n : SlotNo) (a : Access) (s : State) : State := s.setSlot n (some a)

/-- One held slot, alone in the hold queue. -/
def oneHeld (n : SlotNo) (a : Access) (s : State) : State := { one n a s with hold := [n] }

/-- Slot M with this content. -/
def slotM (st : MState) (timer : Option Count) (s : State) : State :=
  s.setSlotM (some { state := st, cls := .load, addr := 0xFFFFFFFC, size := .four, data := none, farTimer := timer })

/-- An access in hand of this party. -/
def inHand (p : Party) (s : State) : State :=
  { s with mem := { s.mem with inHand := some { command := .mr, addr := 0xFFFFFFFC, size := .four, value := none, party := p } } }

/-- A line IN SERVICE at this stage. -/
def serving (st : Stage) (settings : Bool) (s : State) : State :=
  { s with console := { s.console with
    inService := some { line := { text := ['M', 'R'], mark := none, overrun := false }, stage := st, settings := settings }
    response := if st = .responding then some [['=']] else none } }

/-- A watch entry that is ARMED, on every class, over the whole address space. -/
def armed (a : Action) (remaining : Count) (once : Bool) : WatchEntry where
  state         := .armed
  base          := 0
  limit         := 0xFFFFFFFF
  classes       := ⟨true, true, true⟩
  cond          := none
  action        := some a
  record        := if a = .subst then some 7 else none
  alert         := true
  once          := once
  armSource     := none
  remaining     := remaining
  reload        := 0
  pendingReload := some 0xFFFF
  fires         := 0xFFFF

/-- A part in WATCH with one such entry, number 15, and record 7 over the top eight bytes of the address space. -/
def watching (a : Action) : State :=
  ((up .watch).setEntry 15 (armed a 0 false)).setRecord 7
    { valid := true, addr := 0xFFFFFFF8, size := .eight, value := 0x1122334455667788, uses := 0xFFFF }

/-- A running part whose slots 0 to 14 are orphans, so that slot 15 is the only FREE one. -/
def nearlyFull (o : OpState) : State :=
  { up o with transit :=
    { (up o).transit with slots := (Vector.replicate 16 (some (item .orphan .load 0 .four))).set 15 none } }

/-- An OPEN or CLOSED capture record. -/
def logged (q : Word) (st : RecordStatus) : CaptureRecord where
  seq    := q
  stamp  := 0xA3F0
  slot   := 8
  tag    := 2
  cls    := .load
  addr   := 0x20001040
  size   := .four
  data   := none
  fired  := [7]
  owner  := 7
  disp   := .forward
  status := st

/-! ## How the hypotheses are met -/

theorem ready_up (o : OpState) (h : o ≠ .gated) : Ready (up o) := ⟨rfl, h, rfl, rfl, rfl⟩

theorem serves_gated : Serves (up .gated) .preload := ⟨rfl, rfl, rfl⟩

theorem takes_of {s : State} {r : NearRequest} {n : SlotNo} (h1 : s.running) (h2 : s.ctrl.op ≠ .gated)
    (h3 : s.near.reset = false) (h4 : s.slot n = none) (h5 : ∀ m : SlotNo, m < n → s.slot m ≠ none)
    (h6 : s.live r.tag = false) : Takes s r n :=
  ⟨h1, h2, h3, h4, h5, fun h => by rw [(s.live_iff _).mpr h] at h6; cases h6⟩

theorem owns_of {s : State} {r : NearRequest} {o : EntryNo} {a : Action}
    (h1 : entryFires (s.entry o) (judgedOf r) = true) (h2 : (s.entry o).action = some a)
    (h3 : ∀ m, entryFires (s.entry m) (judgedOf r) = true → ∀ b ∈ (s.entry m).action,
      strength b < strength a ∨ (strength b = strength a ∧ o ≤ m)) : Owns s r o a :=
  ⟨(entryFires_iff _ _).mp h1, h2, fun m b hm hb => h3 m ((entryFires_iff _ _).mpr hm) b hb⟩

theorem firedList_self (s : State) (r : NearRequest) : FiredList s r (s.firedEntries (judgedOf r)) :=
  ⟨(List.pairwise_lt_finRange 16).filter _, s.mem_firedEntries r⟩

theorem unblocked_of {s : State} (a : Access) (h : s.hold = []) : Unblocked s a := by
  intro m hm
  rw [h] at hm
  cases hm

/-! ## WellFormed smoke tests -/

/-- The example operands of section 2.6 can be typed; an empty token, a token with a space, one with a control character and
a line of 73 characters cannot. -/
theorem test_wellFormed_accepts :
    (Instr.wr .console ["1".toList, "R=0".toList]).wellFormed = true ∧ Instr.tick.wellFormed = true := by decide

theorem test_wellFormed_refuses_empty_token : (Instr.wr .console [[]]).wellFormed = false := by decide

theorem test_wellFormed_refuses_space : (Instr.wr .console ["1 R=0".toList]).wellFormed = false := by decide

theorem test_wellFormed_refuses_control : (Instr.wr .console [[Char.ofNat 13]]).wellFormed = false := by decide

theorem test_wellFormed_refuses_long_line :
    (Instr.ma .console [List.replicate 69 'A']).wellFormed = true ∧
    (Instr.ma .console [List.replicate 70 'A']).wellFormed = false := by decide

/-- No row of the opcode table gives bits. -/
theorem test_no_word_spells : decodeTableWord 8 0 = none ∧ (up .watch).withFetchWord 8 0 = up .watch := ⟨rfl, rfl⟩

/-! ## The manual's examples, one step each -/

/-- Table 1-1: the LOAD of the example becomes QUEUED, and its `TS` line reads as section 10.3 prints it. -/
theorem test_ts_line_of_table_1_1 :
    slotLine 3 { item .queued .load 0x20000040 .four with tag := some 5, arrival := 0 } =
      "- 3 QUEUED 5 LOAD 20000040 4 00000000 FORWARD - - - -".toList := by decide

/-- Section 10.3: the `HL` line of slot 0 in Table 3-3. -/
theorem test_hl_line_of_table_3_3 :
    holdLine 0 { heldItem .watch .store 0x10000000 .four with tag := some 1, arrival := 0x40, owner := some 3 } =
      "- 0 1 00000040 STORE 10000000 4 WATCH - 3 -".toList := by decide

/-- Section 10.3: the last record of section 5.8, and an OFF entry. -/
theorem test_reports_of_section_10_3 :
    fields '=' (recordReport (logged 0x141 (.closed .forwarded (some .ok) (some 0xABCD)))) =
      "= 00000141 0000A3F0 8 2 LOAD 20001040 4 - 7 7 FORWARD CLOSED - FORWARDED OK 0000ABCD".toList ∧
    fields '=' (entryReport 0 (State.reset.entry 0)) =
      "= 0 OFF 00000000 00000000 - - - - - 0 0 - 0000 0000 - 0000".toList := by decide

/-- Table 10-9 and the examples of sections 3.9, 7.7 and 8.8. -/
theorem test_notice_lines :
    noticeText (.hd 0 1 (some 3) 0x10000000) = "^HD 0 1 3 10000000".toList ∧
    noticeText (.plEr 3 .bo) = "^PL ER 3 BO".toList ∧ noticeText (.fs 16) = "^FS 10".toList ∧
    lostText 2 = "^NL 02".toList := by decide

/-- Section 2.6: entry 1 with two loads to pass. -/
def countingEntry (remaining : Count) (pending : Option Count) : WatchEntry :=
  { armed .note remaining false with
    base := 0x20000100, limit := 0x200001FF, classes := ⟨false, true, false⟩, alert := false, reload := 2
    pendingReload := pending, fires := 0 }

/-- Table 2-4: the first load counts and does not fire. -/
theorem test_watch_counts :
    (after (.acceptance (req 0 .load 0x20000110 .four)) ((up .watch).setEntry 1 (countingEntry 2 none))).entry 1 =
      countingEntry 1 none := by decide

/-- Table 2-4: the load that fires takes the pending reload, and a record is made with sequence number 1. -/
theorem test_watch_fires :
    let t := after (.acceptance (req 0 .load 0x20000100 .two)) ((up .watch).setEntry 1 (countingEntry 0 (some 0)))
    t.entry 1 = { countingEntry 0 none with reload := 0, fires := 1 } ∧ t.slotSeq 0 = some 1 ∧ t.log.counter = 1 := by
  decide

/-- Table 3-3: B overlaps the held STORE A and waits with reason ORDER. -/
theorem test_guard_holds :
    let t := after (.acceptance (req 2 .load 0x10000002 .two))
      (oneHeld 0 (heldItem .watch .store 0x10000000 .four) (up .watch))
    t.hold = [0, 1] ∧ t.heldAs 1 .order = true ∧ t.far.forward = [] := by decide

/-- Table 3-3: `HR` releases slot 0 and the clearance lets slot 1 proceed, `= 0 1`. -/
theorem test_hr_clears :
    let s := oneHeld 0 (heldItem .watch .store 0x10000000 .four) (up .watch)
    let t := after (.hr .console []) { one 1 (heldItem .order .load 0x10000002 .two) s with hold := [0, 1] }
    t.hold = [] ∧ t.far.forward = [0, 1] ∧ t.replyLines = some ["= 0 1".toList] := by decide

/-- Section 4.6: record 2 as `SS` leaves it, a LOAD that hits it, and a STORE that writes it. -/
theorem test_ss_sets :
    (after (.ss .console ["2".toList, "A=20000400".toList, "Z=8".toList, "V=0000123400000000".toList]) (up .watch)).record 2 =
      { valid := true, addr := 0x20000400, size := .eight, value := 0x123400000000, uses := 0 } := by decide

theorem test_record_read_and_write :
    let r : SubstRecord := { valid := true, addr := 0x20000400, size := .eight, value := 0x123400000000, uses := 0 }
    r.read 0x20000404 .four = 0x1234 ∧ (r.write 0x20000404 .two 0x5678).value = 0x567800000000 ∧
    (r.write 0x20000404 .two 0x5678).read 0x20000400 .eight = 0x567800000000 := by decide

/-- Section 4.6: a verb line that names a keyword twice is refused `?BO`. -/
theorem test_keyword_twice :
    (after (.ws .console ["5".toList, "B=20000400".toList, "A=S".toList, "S=2".toList, "A=S".toList]) (up .watch)).replyLines =
      some ["?BO".toList] := by decide

/-- Table 6-3: `AK 2` removes member 2, and a second one is refused `?NF`. -/
theorem test_ak :
    let t := after (.ak .console ["2".toList]) { up .watch with alerts := [2, 9] }
    t.alerts = [9] ∧ t.replyLines = some ["= 2".toList] ∧
    (after (.ak .console ["2".toList]) { up .watch with alerts := [9] }).replyLines = some ["?NF".toList] := by decide

/-- Table 7-4: `GO` as the fifth preload line ends preload in WATCH with `^PL OK 5`. -/
theorem test_preload_go :
    let t := after (.go .preload []) { up .gated with preload := { (up .gated).preload with lines := 4 } }
    t.ctrl.op = .watch ∧ t.preload.lines = 5 ∧ t.console.tx = .notice (.plOk 5) := by decide

/-- Section 7.7: a third line that is refused ends preload at line 3 in BYPASS. -/
theorem test_preload_refused :
    let t := after (.ws .preload ["4".toList, "B=0".toList, "A=S".toList, "S=9".toList])
      { up .gated with preload := { (up .gated).preload with lines := 2 } }
    t.ctrl.op = .bypass ∧ t.console.tx = .notice (.plEr 3 .bo) := by decide

/-- Table 8-5: the `HL` completed while the overrun flag was set is answered `?OV`. -/
theorem test_overrun_line :
    (after (.hl .console []) { up .watch with console := { (up .watch).console with overrun := true } }).replyLines =
      some ["?OV".toList] := by decide

/-- Table 8-6: after the last character of `= 0`, the head of a full queue goes out behind `^NL 02`. -/
theorem test_lost_notices :
    let s := serving .responding false (up .watch)
    let t := after .lineSent { s with console := { s.console with
      tx := .response "= 0".toList, response := some [], notices := List.replicate 16 .nr, noticesLost := 2 } }
    t.console.tx = .lost 2 .nr ∧ t.console.notices.length = 15 ∧ t.console.noticesLost = 0 ∧
      t.console.inService = none := by decide

/-- Table 9-3: the read of 2000_0000h answers `= 20000000 0000ABCD` and moves the cursor to 2000_0004h. -/
theorem test_mr_answer :
    let s := serving .executing false (slotM .issued none (up .watch))
    let t := after (.farResponse { tag := 16, ok := true, lanes := 0xABCD }) { s with mem := { s.mem with
      inHand := some { command := .mr, addr := 0x20000000, size := .four, value := none, party := .console } } }
    t.replyLines = some ["= 20000000 0000ABCD".toList] ∧ t.mem.cursorAddr = 0x20000004 ∧ t.transit.slotM = none := by
  decide

/-- R179: with the cursor at 2000_0004h size 4, `MA Z=8` is refused, and `MA A=20000008 Z=8` is answered `= 20000008 8`. -/
theorem test_ma :
    let s := { up .watch with mem := { (up .watch).mem with cursorAddr := 0x20000004 } }
    (after (.ma .console ["Z=8".toList]) s).replyLines = some ["?BO".toList] ∧
    (after (.ma .console ["A=20000008".toList, "Z=8".toList]) s).replyLines = some ["= 20000008 8".toList] := by decide

/-- Section 9.8: an answer that finds slot M FREE is spurious, `^FS 10`. -/
theorem test_spurious :
    (after (.farResponse { tag := 16, ok := true, lanes := 0 }) (up .watch)).console.tx = .notice (.fs 16) := by decide

/-- Table 9-3: `FR` with slot M an orphan answers `= 0 1`. -/
theorem test_fr_orphan :
    let t := after (.fr .console []) (slotM .orphan none (up .watch))
    t.replyLines = some ["= 0 1".toList] ∧ t.transit.slotM = none ∧ t.farResetLine = true := by decide

/-- Table 1-1: slot 3 wins the far link with far tag 3 and far timer 1000. -/
theorem test_issue :
    let s := one 3 { item .queued .load 0x20000040 .four with tag := some 5 } (up .bypass)
    let t := after .issue { s with far := { s.far with forward := [3] } }
    t.slot 3 = some { item .issued .load 0x20000040 .four with tag := some 5, farTimer := some 1000 } ∧
    t.far.lastRequest = some { tag := 3, cls := .load, addr := 0x20000040, size := .four, lanes := 0 } ∧
    t.far.forward = [] := by decide

/-- R13: the first contest after power-on in which both wait goes to slot M. -/
theorem test_first_contest :
    let s := slotM .queued none (one 3 (item .queued .load 0 .four) (up .bypass))
    let t := after .issue { s with far := { s.far with forward := [3] } }
    t.far.forward = [3] ∧ t.far.lastWinner = .slotM ∧ t.slotMWaits = false := by decide

/-- Table 1-1: the far response OK owes tag 5 its data from slot 3, and its delivery frees the slot. -/
theorem test_far_response :
    let s := one 3 { item .issued .load 0x20000040 .four with tag := some 5, farTimer := some 1000 } (up .bypass)
    let t := after (.farResponse { tag := 3, ok := true, lanes := 0xFFFFFFFF12345678 }) s
    t.near.responses = [{ tag := 5, reason := .ok, data := some 0x12345678, slot := some 3 }] ∧
    t.slotIs 3 .answering = true ∧ (after .delivery t).slot 3 = none := by decide

/-- R22: a queued access is freed without a response, an issued one becomes an orphan, `^NR` goes out. -/
theorem test_near_reset :
    let s := one 4 (item .issued .load 0 .four) (one 3 (item .queued .load 0 .four) (up .bypass))
    let t := after .nearResetAssertion { s with far := { s.far with forward := [3] } }
    t.slot 3 = none ∧ t.slotIs 4 .orphan = true ∧ t.far.forward = [] ∧ t.console.tx = .notice .nr := by decide

/-- R25: the pulse ends on the second tick after `FR`. -/
theorem test_pulse :
    let s := after (.fr .console []) (up .bypass)
    (after .farResetNegation (after .tick s)).farResetLine = true ∧
    (after .farResetNegation (after .tick (after .tick s))).farResetLine = false := by decide

/-- R67: a hold timer does not count in FROZEN. -/
theorem test_tick_frozen :
    (after .tick (oneHeld 0 (heldItem .freeze .load 0 .four (some 5)) (up .frozen))).slot 0 =
      some (heldItem .freeze .load 0 .four (some 5)) ∧
    (after .tick (oneHeld 0 (heldItem .freeze .load 0 .four (some 5)) (up .watch))).slot 0 =
      some (heldItem .freeze .load 0 .four (some 4)) := by decide

/-- R136 and R137: `FZ` in WATCH answers `= FROZEN WATCH`, and `TH` then answers `= WATCH`. -/
theorem test_fz_th :
    (after (.fz .console []) (up .watch)).replyLines = some ["= FROZEN WATCH".toList] ∧
    (after (.th .console []) (up .frozen)).replyLines = some ["= WATCH".toList] ∧
    (after (.th .console []) (up .frozen)).ctrl.op = .watch := by decide

/-- R133, R193: the negation of POR_N samples PRELOAD_EN and the straps; `ST` then reports the power-on values (R145). -/
theorem test_power_on :
    let boot (p : Bool) := after (.porNegation { preloadEn := p, baud := 3, trigger := false, nearReset := false }) State.reset
    (boot true).ctrl.op = .gated ∧ (boot true).preloadSelected = true ∧
    (after (.st .console []) (boot false)).replyLines =
      some ["= BYPASS - 0 FREE 0 0 0 0 0000 00000001 W - 00 0000 R 03E8 0 0 3 N".toList] := by decide

/-- R153: 41h has two ones, so its even parity bit is low and its odd parity bit is high; data bits go least significant
first between the start bit and the stop bit. -/
theorem test_frame_bits :
    frameBits .even 0x41 = [false, true, false, false, false, false, false, true, false, false, true] ∧
    parityLevel .odd 0x41 = some true := by decide

/-! ## Witnesses: events

Each theorem gives, for every clause of its statement, a state and operands that meet all the hypotheses of that clause. -/

theorem witness_StepTakesFront : State.reset.pending = [] := rfl

/-- A part with POR_N asserted to which the memory side offers these responses. -/
def offered (w : List FarResponse) : State := { State.reset with far := { State.reset.far with waiting := w } }

theorem witness_PowerOnAndSampling :
    (State.reset.ctrl.por = true ∧ (up .bypass).ctrl.por = false) ∧
    (let s := offered [{ tag := 31, ok := true, lanes := 0 }, { tag := 15, ok := false, lanes := 1 }];
      s.ctrl.por = true ∧ s.far.pulse = none ∧ (∀ r ∈ s.far.waiting, (∀ n : SlotNo, r.tag.val = n.val → s.slot n = none) ∧
        (r.tag.val = 16 → s.transit.slotM = none))) ∧
    Instr.tick ≠ .porAssertion ∧ (∀ pins, Instr.tick ≠ .porNegation pins) ∧ ∀ r, Instr.tick ≠ .farResponse r := by
  refine ⟨⟨rfl, rfl⟩, ⟨rfl, rfl, by decide⟩, ?_, fun pins => ?_, fun r => ?_⟩ <;> exact fun h => by cases h

theorem witness_AcceptanceBackPressure :
    ((up .gated).running ∧ (up .gated).ctrl.op = .gated) ∧
    (let s := { up .watch with near := { (up .watch).near with reset := true } }; s.running ∧ s.near.reset = true) ∧
    (let s := one 15 (item .answering .load 0 .one) (nearlyFull .watch); s.running ∧ ∀ n, s.slot n ≠ none) ∧
    (let s := one 15 (item .held .load 0 .one) (up .watch); s.running ∧ TagLive s 7) := by
  refine ⟨⟨rfl, rfl⟩, ⟨rfl, rfl⟩, ⟨rfl, by decide⟩, rfl, ?_⟩
  exact ((one 15 (item .held .load 0 .one) (up .watch)).live_iff 7).mp (by decide)

theorem takes_nearlyFull (o : OpState) (h : o ≠ .gated) (r : NearRequest) : Takes (nearlyFull o) r 15 := by
  refine takes_of rfl h rfl (by cases o <;> decide) (by cases o <;> decide) ?_
  cases o <;> exact (by decide : ∀ t : NearTag, (nearlyFull _).live t = false) r.tag

theorem witness_AcceptMisaligned :
    Takes (nearlyFull .frozen) (req 7 .store 0xFFFFFFFF .two) 15 ∧ aligned 0xFFFFFFFF .two = false :=
  ⟨takes_nearlyFull _ (by decide) _, by decide⟩

/-- A state in which slot 0 holds a STORE over the top eight bytes of the address space. -/
def blocking (s : State) : State := oneHeld 0 (heldItem .watch .store 0xFFFFFFF8 .eight) s

theorem not_unblocked {s : State} (a b : Access) (hs : s.slot 0 = some b) (hh : s.hold = [0])
    (hb : b = heldItem .watch .store 0xFFFFFFF8 .eight) (ha : a.addr = 0xFFFFFFFC ∧ a.size = .four) : ¬ Unblocked s a := by
  intro h
  refine h 0 (by rw [hh]; simp) ⟨b, hs, ?_⟩
  subst hb
  rw [ha.1, ha.2]
  exact ⟨rfl, by decide, Or.inr rfl⟩

theorem takes_blocking (s : State) (o : OpState) (t : NearTag) (c : AccClass) (a : Nat) (z : Size) (h : o ≠ .gated)
    (hs : s = up o ∨ ∃ b, o = .watch ∧ s = watching b) (ht : t ≠ 7) :
    Takes (blocking s) (req t c a z) 1 := by
  have hl : (blocking s).live t = false := by
    rcases hs with rfl | ⟨b, rfl, rfl⟩
    · revert h t; cases o <;> decide
    · revert t; cases b <;> decide
  have hm : ∀ m : SlotNo, m < 1 → (blocking s).slot m ≠ none := by
    rcases hs with rfl | ⟨b, rfl, rfl⟩
    · cases o <;> decide
    · cases b <;> decide
  have hn : (blocking s).slot 1 = none := by
    rcases hs with rfl | ⟨b, rfl, rfl⟩
    · cases o <;> decide
    · cases b <;> decide
  rcases hs with rfl | ⟨b, rfl, rfl⟩
  · exact takes_of rfl h rfl hn hm hl
  · exact takes_of rfl h rfl hn hm hl

theorem witness_AcceptBypass :
    let r := req 0 .load 0xFFFFFFFC .four
    aligned r.addr r.size = true ∧
    (Takes (nearlyFull .bypass) r 15 ∧ (nearlyFull .bypass).ctrl.op = .bypass ∧
      Unblocked (nearlyFull .bypass) (accessOf (nearlyFull .bypass) r .queued .forward none)) ∧
    (Takes (blocking (up .bypass)) r 1 ∧ (blocking (up .bypass)).ctrl.op = .bypass ∧
      ¬ Unblocked (blocking (up .bypass)) (accessOf (blocking (up .bypass)) r .queued .forward none)) :=
  ⟨by decide, ⟨takes_nearlyFull _ (by decide) _, rfl, unblocked_of _ rfl⟩,
    takes_blocking _ _ _ _ _ _ (by decide) (Or.inl rfl) (by decide), rfl,
    not_unblocked _ _ rfl rfl rfl ⟨by decide, rfl⟩⟩

theorem witness_AcceptFrozen :
    Takes (nearlyFull .frozen) (req 7 .store 0xFFFFFFF8 .eight) 15 ∧ aligned 0xFFFFFFF8 .eight = true ∧
    (nearlyFull .frozen).ctrl.op = .frozen := ⟨takes_nearlyFull _ (by decide) _, by decide, rfl⟩

/-- Entries 0 to 3 and 15 of a judgement: one counts, one fires once, one fires and reloads, one is OFF, one waits. -/
def judging : State :=
  (((up .watch).setEntry 0 (armed .note 0xFFFF false)).setEntry 1 (armed .pass 0 true)).setEntry 2 (armed .pass 0 false)
    |>.setEntry 15 { armed .hold 0 false with state := .dormant, armSource := some (.entry 2) }

theorem takes_up (s : State) (r : NearRequest) (h1 : s.running) (h2 : s.ctrl.op ≠ .gated) (h3 : s.near = State.reset.near)
    (h4 : s.transit = State.reset.transit) : Takes s r 0 := by
  have hs : ∀ n, s.slot n = none := by
    intro n
    show s.transit.slots[n] = none
    rw [h4]
    exact (by decide : ∀ n, State.reset.slot n = none) n
  refine ⟨h1, h2, by rw [h3]; rfl, hs 0, fun m hm => ?_, ?_⟩
  · exact absurd hm (by simp)
  · rintro (⟨n, a, hn, _⟩ | ⟨e, he, _⟩)
    · rw [hs n] at hn; cases hn
    · rw [h3] at he; cases he

theorem witness_JudgementCounts :
    let r := req 7 .load 0xFFFFFFFC .four
    Takes judging r 0 ∧ aligned r.addr r.size = true ∧ judging.ctrl.op = .watch ∧
    (Matches (judging.entry 0) r ∧ (judging.entry 0).remaining ≠ 0) ∧
    (Fires (judging.entry 1) r ∧ (judging.entry 1).once = true) ∧
    (Fires (judging.entry 2) r ∧ (judging.entry 2).once = false) ∧
    ((judging.entry 15).state = .dormant ∧
      ∃ m, (judging.entry 15).armSource = some (.entry m) ∧ Fires (judging.entry m) r) ∧
    (¬ Matches (judging.entry 3) r ∧ ¬ ((judging.entry 3).state = .dormant ∧
      ∃ m, (judging.entry 3).armSource = some (.entry m) ∧ Fires (judging.entry m) r)) :=
  ⟨takes_up _ _ rfl (by decide) rfl rfl, by decide, rfl, ⟨(entryMatches_iff _ _).mp (by decide), by decide⟩,
    ⟨(entryFires_iff _ _).mp (by decide), rfl⟩, ⟨(entryFires_iff _ _).mp (by decide), rfl⟩,
    ⟨rfl, 2, rfl, (entryFires_iff _ _).mp (by decide)⟩,
    fun h => absurd ((entryMatches_iff _ _).mpr h) (by decide), fun h => absurd h.1 (by decide)⟩

theorem owns_watching (a : Action) (r : NearRequest) (hr : r = req 0 .load 0xFFFFFFFC .four) :
    Owns (watching a) r 15 a ∧ Owns (blocking (watching a)) r 15 a := by
  subst hr
  constructor <;> refine owns_of ?_ ?_ ?_ <;> cases a <;> decide

theorem takes_watching (a : Action) (r : NearRequest) : Takes (watching a) r 0 :=
  takes_up _ _ rfl (by cases a <;> decide) rfl rfl

theorem witness_JudgedForward :
    let r := req 0 .load 0xFFFFFFFC .four
    aligned r.addr r.size = true ∧
    (Takes (nearlyFull .watch) r 15 ∧ (nearlyFull .watch).ctrl.op = .watch ∧
      (∀ k, ¬ Fires ((nearlyFull .watch).entry k) r) ∧
      Unblocked (nearlyFull .watch) (accessOf (nearlyFull .watch) r .queued .forward none)) ∧
    (Takes (watching .note) r 0 ∧ (watching .note).ctrl.op = .watch ∧ Owns (watching .note) r 15 .note ∧
      Unblocked (watching .note) (accessOf (watching .note) r .queued .forward (some 15))) ∧
    (Takes (blocking (watching .pass)) r 1 ∧ (blocking (watching .pass)).ctrl.op = .watch ∧
      Owns (blocking (watching .pass)) r 15 .pass ∧
      ¬ Unblocked (blocking (watching .pass)) (accessOf (blocking (watching .pass)) r .queued .forward (some 15))) :=
  ⟨by decide, ⟨takes_nearlyFull _ (by decide) _, rfl,
      fun k h => absurd ((entryFires_iff _ _).mpr h) ((by decide : ∀ k : EntryNo,
        ¬ entryFires ((nearlyFull .watch).entry k) (judgedOf (req 0 .load 0xFFFFFFFC .four)) = true) k),
      unblocked_of _ rfl⟩,
    ⟨takes_watching _ _, rfl, (owns_watching _ _ rfl).1, unblocked_of _ rfl⟩,
    takes_blocking _ .watch _ _ _ _ (by decide) (Or.inr ⟨_, rfl, rfl⟩) (by decide), rfl, (owns_watching _ _ rfl).2,
    not_unblocked _ _ rfl rfl rfl ⟨by decide, rfl⟩⟩

theorem witness_JudgedHold :
    let r := req 0 .load 0xFFFFFFFC .four
    aligned r.addr r.size = true ∧
    (Takes (watching .hold) r 0 ∧ (watching .hold).ctrl.op = .watch ∧ Owns (watching .hold) r 15 .hold) ∧
    (Takes (watching .freeze) r 0 ∧ (watching .freeze).ctrl.op = .watch ∧ Owns (watching .freeze) r 15 .freeze) :=
  ⟨by decide, ⟨takes_watching _ _, rfl, (owns_watching _ _ rfl).1⟩, takes_watching _ _, rfl, (owns_watching _ _ rfl).1⟩

/-- The same part with record 7 invalid. -/
def missing : State := (watching .subst).setRecord 7 SubstRecord.powerOn

/-- The same part with record 7 valid at the word below the access, which it does not cover. -/
def beyond : State :=
  (watching .subst).setRecord 7 { SubstRecord.powerOn with valid := true, size := .four, addr := 0xFFFFFFF8 }

theorem witness_JudgedSubst :
    let r := req 0 .load 0xFFFFFFFC .four
    aligned r.addr r.size = true ∧
    (Takes (watching .subst) r 0 ∧ (watching .subst).ctrl.op = .watch ∧ Owns (watching .subst) r 15 .subst ∧
      ((watching .subst).entry 15).record = some 7 ∧
      Unblocked (watching .subst) (accessOf (watching .subst) r .queued .substitute (some 15)) ∧
      ((watching .subst).record 7).valid = true ∧ ((watching .subst).record 7).covers r.addr r.size = true) ∧
    (Takes missing r 0 ∧ missing.ctrl.op = .watch ∧ Owns missing r 15 .subst ∧ (missing.entry 15).record = some 7 ∧
      Unblocked missing (accessOf missing r .queued .substitute (some 15)) ∧ (missing.record 7).valid = false) ∧
    (Takes beyond r 0 ∧ beyond.ctrl.op = .watch ∧ Owns beyond r 15 .subst ∧ (beyond.entry 15).record = some 7 ∧
      Unblocked beyond (accessOf beyond r .queued .substitute (some 15)) ∧ (beyond.record 7).valid = true ∧
      (beyond.record 7).covers r.addr r.size = false) ∧
    (Takes (blocking (watching .subst)) r 1 ∧ (blocking (watching .subst)).ctrl.op = .watch ∧
      Owns (blocking (watching .subst)) r 15 .subst ∧ ((blocking (watching .subst)).entry 15).record = some 7 ∧
      ¬ Unblocked (blocking (watching .subst))
        (accessOf (blocking (watching .subst)) r .queued .substitute (some 15))) :=
  ⟨by decide, ⟨takes_watching _ _, rfl, (owns_watching _ _ rfl).1, by decide, unblocked_of _ rfl, by decide, by decide⟩,
    ⟨takes_up _ _ rfl (by decide) rfl rfl, rfl, owns_of (by decide) (by decide) (by decide), by decide,
      unblocked_of _ rfl, by decide⟩,
    ⟨takes_up _ _ rfl (by decide) rfl rfl, rfl, owns_of (by decide) (by decide) (by decide), by decide,
      unblocked_of _ rfl, by decide, by decide⟩,
    takes_blocking _ .watch _ _ _ _ (by decide) (Or.inr ⟨_, rfl, rfl⟩) (by decide), rfl, (owns_watching _ _ rfl).2,
    by decide, not_unblocked _ _ rfl rfl rfl ⟨by decide, rfl⟩⟩

/-- A part in WATCH whose sequence counter is at its greatest value, so that its log makes no record. -/
def exhausted (a : Action) : State :=
  { watching a with log := { (watching a).log with counter := 0xFFFFFFFF } }

theorem witness_JudgementRecord :
    let r := req 0 .load 0xFFFFFFFC .four
    aligned r.addr r.size = true ∧
    (Takes (exhausted .note) r 0 ∧ (exhausted .note).ctrl.op = .watch ∧ Owns (exhausted .note) r 15 .note ∧
      FiredList (exhausted .note) r ((exhausted .note).firedEntries (judgedOf r)) ∧
      (∀ c ∈ (exhausted .note).log.records, c.seq ≤ (exhausted .note).log.counter) ∧ ¬ RoomFor (exhausted .note).log) ∧
    (Takes (watching .hold) r 0 ∧ Owns (watching .hold) r 15 .hold ∧
      FiredList (watching .hold) r ((watching .hold).firedEntries (judgedOf r)) ∧
      (∀ c ∈ (watching .hold).log.records, c.seq ≤ (watching .hold).log.counter) ∧ RoomFor (watching .hold).log) ∧
    (Takes (watching .subst) r 0 ∧ Owns (watching .subst) r 15 .subst ∧
      FiredList (watching .subst) r ((watching .subst).firedEntries (judgedOf r)) ∧
      (∀ c ∈ (watching .subst).log.records, c.seq ≤ (watching .subst).log.counter) ∧ RoomFor (watching .subst).log ∧
      Unblocked (watching .subst) (accessOf (watching .subst) r .queued .substitute (some 15)) ∧
      ((watching .subst).entry 15).record = some 7 ∧ ((watching .subst).record 7).valid = true ∧
      ((watching .subst).record 7).covers r.addr r.size = true) ∧
    (Takes missing r 0 ∧ Owns missing r 15 .subst ∧ FiredList missing r (missing.firedEntries (judgedOf r)) ∧
      (∀ c ∈ missing.log.records, c.seq ≤ missing.log.counter) ∧ RoomFor missing.log ∧
      Unblocked missing (accessOf missing r .queued .substitute (some 15)) ∧ (missing.entry 15).record = some 7 ∧
      ¬ ((missing.record 7).valid = true ∧ (missing.record 7).covers r.addr r.size = true)) ∧
    (Takes beyond r 0 ∧ Owns beyond r 15 .subst ∧ FiredList beyond r (beyond.firedEntries (judgedOf r)) ∧
      (∀ c ∈ beyond.log.records, c.seq ≤ beyond.log.counter) ∧ RoomFor beyond.log ∧
      Unblocked beyond (accessOf beyond r .queued .substitute (some 15)) ∧ (beyond.entry 15).record = some 7 ∧
      (beyond.record 7).valid = true ∧ ¬ (beyond.record 7).covers r.addr r.size = true) :=
  ⟨by decide,
    ⟨takes_up _ _ rfl (by decide) rfl rfl, rfl, owns_of (by decide) (by decide) (by decide), firedList_self _ _,
      (fun c h => by cases h), fun h => h.1 rfl⟩,
    ⟨takes_watching _ _, (owns_watching _ _ rfl).1, firedList_self _ _, (fun c h => by cases h),
      ⟨by decide, Or.inl (by decide)⟩⟩,
    ⟨takes_watching _ _, (owns_watching _ _ rfl).1, firedList_self _ _, (fun c h => by cases h),
      ⟨by decide, Or.inl (by decide)⟩, unblocked_of _ rfl, by decide, by decide, by decide⟩,
    ⟨takes_up _ _ rfl (by decide) rfl rfl, owns_of (by decide) (by decide) (by decide), firedList_self _ _,
      (fun c h => by cases h), ⟨by decide, Or.inl (by decide)⟩, unblocked_of _ rfl, by decide, by decide⟩,
    takes_up _ _ rfl (by decide) rfl rfl, owns_of (by decide) (by decide) (by decide), firedList_self _ _,
    (fun c h => by cases h), ⟨by decide, Or.inl (by decide)⟩, unblocked_of _ rfl, by decide, by decide, by decide⟩

/-- A full log replaces its oldest record only in mode WRAP and when that record is CLOSED. -/
theorem witness_JudgementRecord_full :
    let closed := logged 1 (.closed .forwarded (some .ok) (some 0))
    let full : Log := { records := closed :: List.replicate 63 closed, counter := 0xFFFFFFFE, lost := 0, mode := .wrap }
    RoomFor full ∧ full.records.length = 64 ∧ ¬ RoomFor { full with mode := .stop } := by
  refine ⟨⟨by decide, Or.inr ⟨rfl, _, _, rfl, rfl⟩⟩, by decide, ?_⟩
  rintro ⟨_, h | ⟨h, _⟩⟩
  · exact absurd h (by decide)
  · cases h

theorem witness_JudgementNotices :
    let r := req 0 .load 0xFFFFFFFC .four
    aligned r.addr r.size = true ∧
    (Takes (exhausted .freeze) r 0 ∧ (exhausted .freeze).ctrl.op = .watch ∧ Owns (exhausted .freeze) r 15 .freeze ∧
      FiredList (exhausted .freeze) r ((exhausted .freeze).firedEntries (judgedOf r)) ∧
      ¬ RoomFor (exhausted .freeze).log ∧ (exhausted .freeze).log.lost = 0) ∧
    (Takes (watching .pass) r 0 ∧ (watching .pass).ctrl.op = .watch ∧ Owns (watching .pass) r 15 .pass ∧
      FiredList (watching .pass) r ((watching .pass).firedEntries (judgedOf r))) :=
  ⟨by decide, ⟨takes_up _ _ rfl (by decide) rfl rfl, rfl, owns_of (by decide) (by decide) (by decide),
      firedList_self _ _, fun h => h.1 rfl, rfl⟩,
    takes_watching _ _, rfl, (owns_watching _ _ rfl).1, firedList_self _ _⟩

theorem witness_RecordBytes :
    ((watching .subst).record 7).covers 0xFFFFFFFC .four = true ∧
    ((watching .subst).record 7).covers 0xFFFFFFFF .one = true ∧
    ((watching .subst).record 7).covers 0xFFFFFFF8 .eight = true := by decide

/-- A near response that names slot 15. -/
def owed (s : State) : State :=
  { one 15 (item .answering .load 0 .four) s with near := { s.near with
    responses := [{ tag := 7, reason := .ok, data := some 5, slot := some 15 }] } }

theorem witness_DeliveryTakesHead :
    ((owed (up .gated)).running ∧
      (owed (up .gated)).near.responses = { tag := 7, reason := .ok, data := some 5, slot := some 15 } :: []) ∧
    ((up .gated).running ∧ (up .gated).near.responses = []) := ⟨⟨rfl, rfl⟩, rfl, rfl⟩

theorem witness_NearReset :
    let s := oneHeld 15 { heldItem .watch .store 0 .one with logSeq := some 1 } (up .watch)
    let l := { s with log := { s.log with records := [logged 1 (.opened none), logged 2 (.opened none)], counter := 2 } }
    (l.running ∧ l.near.reset = false ∧ l.slotIs 15 .held = true ∧ l.slotSeq 15 = some 1 ∧ l.slot 0 = none ∧
      l.log.records[0]? = some (logged 1 (.opened none)) ∧ l.log.records[1]? = some (logged 2 (.opened none))) ∧
    ((one 15 (item .issued .load 0 .one) (up .watch)).slotIs 15 .issued = true ∧
      (one 15 (item .orphan .load 0 .one) (up .watch)).slotIs 15 .orphan = true) ∧
    ({ up .watch with near := { (up .watch).near with reset := true } } : State).near.reset = true := by decide

theorem witness_TriggerEdges :
    let s := (up .watch).setEntry 15 { armed .note 0 false with state := .dormant, armSource := some .trigger }
    (s.running ∧ s.ctrl.trigger = false ∧ s.ctrl.op = .watch ∧ (s.entry 15).state = .dormant ∧
      (s.entry 15).armSource = some .trigger) ∧
    (s.entry 0).state ≠ .dormant ∧ (s.setTrigger true).ctrl.trigger = true := by decide

/-- The forward queue with slot 15 at its head. -/
def queued15 (s : State) : State :=
  { one 15 (item .queued .store 0xFFFFFFFC .four) s with far := { s.far with forward := [15] } }

theorem witness_IssueContest :
    ({ up .watch with far := { (up .watch).far with pulse := some 2 } } : State).far.pulse ≠ none ∧
    ((up .watch).far.pulse = none ∧ (up .watch).far.forward = [] ∧
      ∀ m, (up .watch).transit.slotM = some m → m.state ≠ .queued) ∧
    (let s := queued15 (up .watch);
      s.far.pulse = none ∧ s.far.forward = 15 :: [] ∧ s.slot 15 = some (item .queued .store 0xFFFFFFFC .four) ∧
        ∀ m, s.transit.slotM = some m → m.state ≠ .queued) ∧
    (let s := queued15 (slotM .queued none (up .watch));
      let s := { s with far := { s.far with lastWinner := .slotM } };
      s.far.pulse = none ∧ s.far.forward = 15 :: [] ∧ s.far.lastWinner = .slotM ∧ s.slotMWaits = true) ∧
    (let s := slotM .queued none (up .watch);
      s.far.pulse = none ∧ s.far.forward = [] ∧ s.slotMWaits = true) ∧
    (let s := queued15 (slotM .queued none (up .watch));
      s.far.pulse = none ∧ s.far.lastWinner = .forwardQueue ∧ s.slotMWaits = true ∧ s.running) :=
  ⟨by decide, ⟨rfl, rfl, fun m h => by cases h⟩, ⟨rfl, rfl, by decide, fun m h => by cases h⟩,
    by decide, by decide, by decide⟩

theorem witness_FarResponseCompletes :
    let a := { item .issued .load 0xFFFFFFFC .four with logSeq := some 1 }
    let s := one 15 a (up .watch)
    let l := { s with log := { s.log with records := [logged 1 (.opened (some .substMiss))], counter := 1 } }
    l.running ∧ l.far.pulse = none ∧ (15 : Fin 32).val = (15 : SlotNo).val ∧ l.slot 15 = some a ∧ a.state = .issued ∧
    a.tag = some 7 ∧ a.logSeq = some 1 ∧
    l.log.records.find? (fun c => c.seq = 1) = some (logged 1 (.opened (some .substMiss))) ∧
    (item .issued .load 0 .one).logSeq = none := by decide

theorem witness_FarResponseDropped :
    ({ up .watch with far := { (up .watch).far with pulse := some 0 } } : State).far.pulse ≠ none ∧
    (let s := one 15 (item .orphan .load 0 .one) (up .watch);
      s.running ∧ s.far.pulse = none ∧ s.slot 15 = some (item .orphan .load 0 .one)) ∧
    (let s := slotM .orphan none (up .watch); s.far.pulse = none ∧ s.transit.slotM.isSome = true) ∧
    (∀ a, (up .watch).slot 15 = some a → a.state ≠ .issued ∧ a.state ≠ .orphan) ∧
    (∀ m, (up .watch).transit.slotM = some m → m.state = .queued) ∧ 16 < (31 : Fin 32).val :=
  ⟨by decide, by decide, by decide, fun a h => absurd (h.symm.trans (by decide : (up .watch).slot 15 = none)) (by simp),
    (fun m h => by cases h), by decide⟩

/-- The same part with a second line WAITING. -/
def waitingToo (s : State) : State :=
  { s with console := { s.console with waiting := some { text := ['S', 'T'], mark := none, overrun := false } } }

theorem witness_FarResponseSlotM :
    let busy := slotM .issued (some 0) (up .watch)
    let gate := slotM .issued (some 0) (up .gated)
    (let s := serving .executing false (inHand .console busy);
      s.running ∧ s.far.pulse = none ∧ (16 : Fin 32).val = 16 ∧ s.transit.slotM.any (fun m => m.state == .issued) = true ∧
        s.mem.inHand.any (fun h => h.party == .console) = true ∧ s.console.inService.isSome = true ∧
        sendingResponse s.console = false) ∧
    (let s := inHand .preload gate;
      s.running ∧ s.mem.inHand.any (fun h => h.party == .preload) = true ∧ s.ctrl.op = .gated ∧
        ({ s.preload with offset := 65535 } : Preload).offset < 65536 ∧
        65536 ≤ ({ s.preload with offset := 65536 } : Preload).offset) ∧
    (let s := inHand .nobody busy;
      s.mem.inHand.any (fun h => h.party == .nobody) = true ∧ s.lineExecutes = false) ∧
    (let s := serving .executing false (inHand .nobody busy);
      s.mem.inHand.any (fun h => h.party == .nobody) = true ∧
        s.console.inService.any (fun v => v.stage == .executing && !v.settings) = true ∧ s.console.waiting = none ∧
        (waitingToo s).console.waiting.isSome = true ∧
        (waitingToo s).console.inService.any (fun v => v.stage == .executing && !v.settings) = true ∧
        sendingResponse (waitingToo s).console = false) := by
  decide

/-- R161, R187: the `ST` that waited is answered in the event of the far response. -/
theorem test_promoted_line :
    (after (.farResponse { tag := 16, ok := true, lanes := 0 })
      (waitingToo (serving .executing false (inHand .nobody (slotM .issued (some 0) (up .watch)))))).replyLines =
      some ["= WATCH - 0 FREE 0 0 0 0 0000 00000001 W - 00 0000 R 03E8 0 0 0 N".toList] := by decide

theorem witness_FarResetNegation :
    let pulse (w : List FarResponse) : State :=
      { up .watch with far := { (up .watch).far with pulse := some 0, waiting := w } }
    (up .watch).far.pulse ≠ some 0 ∧ ((pulse []).far.pulse = some 0 ∧ (pulse []).far.waiting = []) ∧
    ((pulse [{ tag := 16, ok := true, lanes := 0 }]).far.pulse = some 0 ∧
      (pulse [{ tag := 16, ok := true, lanes := 0 }]).far.waiting = [{ tag := 16, ok := true, lanes := 0 }]) ∧
    (let s := pulse [{ tag := 0, ok := true, lanes := 0 }, { tag := 31, ok := true, lanes := 0 }];
      s.running ∧ s.far.pulse = some 0 ∧ (∀ n, ∀ a ∈ s.slot n, a.state ≠ .issued ∧ a.state ≠ .orphan) ∧
        ∀ m ∈ s.transit.slotM, m.state = .queued) := by decide

theorem witness_TickCounts :
    (up .frozen).running ∧ (up .frozen).slot 0 = none ∧
    (one 15 (heldItem .watch .load 0 .one (some 0)) (up .frozen)).slot 15 =
      some (heldItem .watch .load 0 .one (some 0)) := by decide

theorem witness_FarTimeout :
    let a := { item .issued .load 0 .one with farTimer := some 0 }
    ((one 15 a (up .watch)).running ∧ (one 15 a (up .watch)).slot 15 = some a ∧ a.state = .issued ∧
      a.farTimer = some 0 ∧ a.tag = some 7) ∧
    ∀ b ∈ (one 15 { a with farTimer := some 1 } (up .watch)).slot 15, ¬ (b.state = .issued ∧ b.farTimer = some 0) := by
  decide

theorem witness_SlotMFarTimeout :
    let due (o : OpState) := slotM .issued (some 0) (up o)
    (∀ o, (due o).transit.slotM.any (fun m => m.state == .issued && m.farTimer == some 0) = true) ∧
    (let s := serving .executing false (inHand .console (due .watch));
      s.mem.inHand.any (fun h => h.party == .console) = true ∧ s.console.inService.isSome = true ∧
        sendingResponse s.console = false) ∧
    (let s := inHand .preload (due .gated); s.mem.inHand.any (fun h => h.party == .preload) = true ∧ s.ctrl.op = .gated) ∧
    (let s := inHand .nobody (due .watch);
      s.mem.inHand.any (fun h => h.party == .nobody) = true ∧ s.lineExecutes = false) ∧
    (let s := serving .executing false (inHand .nobody (due .watch));
      s.mem.inHand.any (fun h => h.party == .nobody) = true ∧
        s.console.inService.any (fun v => v.stage == .executing && !v.settings) = true ∧ s.console.waiting = none ∧
        (waitingToo s).console.waiting.isSome = true ∧ sendingResponse (waitingToo s).console = false) ∧
    ∀ m ∈ (slotM .issued (some 1) (up .watch)).transit.slotM, ¬ (m.state = .issued ∧ m.farTimer = some 0) := by
  refine ⟨fun o => by cases o <;> decide, by decide, by decide, by decide, by decide, by decide⟩

/-! ## Witnesses: held accesses -/

/-- A part with one held access due to expire, under an expiry policy. -/
def expiring (p : Policy) : State :=
  let s := oneHeld 15 (heldItem .watch .load 0xFFFFFFFC .four (some 0)) (up .watch)
  { s with ctrl := { s.ctrl with params := { s.ctrl.params with policy := p } } }

/-- Slot 15 behind a STORE that blocks it. -/
def behind (s : State) : State :=
  { one 0 (heldItem .watch .store 0xFFFFFFF8 .eight) s with hold := [0, 15] }

theorem blocks_behind (p : Policy) :
    ¬ (∀ m ∈ (behind (expiring p)).ahead 15,
      ¬ Blocks (behind (expiring p)) m (heldItem .watch .load 0xFFFFFFFC .four (some 0))) := by
  intro h
  refine h 0 (by cases p <;> decide) ⟨heldItem .watch .store 0xFFFFFFF8 .eight, by cases p <;> decide, rfl, by decide, Or.inr rfl⟩

theorem witness_HoldExpiry :
    let a := heldItem .watch .load 0xFFFFFFFC .four (some 0)
    (a.state = .held ∧ a.holdTimer = some 0 ∧ a.tag = some 7) ∧
    ((expiring .fail).running ∧ (expiring .fail).ctrl.params.policy = .fail ∧ (expiring .fail).slot 15 = some a) ∧
    ((expiring .release).running ∧ (expiring .release).ctrl.params.policy = .release ∧
      (expiring .release).slot 15 = some a ∧
      ∀ m ∈ (expiring .release).ahead 15, ¬ Blocks (expiring .release) m a) ∧
    ((behind (expiring .release)).ctrl.params.policy = .release ∧ (behind (expiring .release)).slot 15 = some a ∧
      ¬ (∀ m ∈ (behind (expiring .release)).ahead 15, ¬ Blocks (behind (expiring .release)) m a)) ∧
    ∀ b, (up .watch).slot 15 = some b → ¬ (b.state = .held ∧ b.holdTimer = some 0) :=
  ⟨by decide, by decide,
    ⟨rfl, rfl, by decide, fun m hm => absurd hm ((by decide : ∀ m, m ∉ (expiring .release).ahead 15) m)⟩,
    ⟨rfl, by decide, blocks_behind _⟩,
    fun b h => absurd (h.symm.trans (by decide : (up .watch).slot 15 = none)) (by simp)⟩

/-- A part in WATCH with a held STORE in slot 15 that a record describes, a commanded console line to come, and a step to
take: it meets every law. -/
def lawful : State :=
  let s := oneHeld 15 { heldItem .watch .store 0xFFFFFFFC .four with logSeq := some 1, disp := .hold, owner := some 0 } (up .watch)
  { s with
    watch   := (s.setEntry 0 { armed .hold 0 false with pendingReload := none }).watch
    log     := { s.log with records := [logged 1 (.opened none)], counter := 1 }
    pending := [.ra .console []] }

theorem lawful_slots : SlotsOk lawful := by
  have h : ∀ n, ∀ a ∈ lawful.slot n, a = { heldItem .watch .store 0xFFFFFFFC .four with
      logSeq := some 1, disp := .hold, owner := some 0 } := by decide
  intro n a ha
  rw [h n a ha]
  constructor <;> decide

theorem lawful_transit : TransitOk lawful := by
  refine ⟨by decide, by decide, by decide, by decide, by decide, by decide, ?_, by decide, ?_⟩
  · intro m n a b t ha hb _ _ _ _
    have h : ∀ m n, (lawful.slot m).isSome = true → (lawful.slot n).isSome = true → m = n := by decide
    exact h m n (by rw [ha]; rfl) (by rw [hb]; rfl)
  · intro n a e _ _ he
    cases he

theorem lawful_log : LogOk lawful := by
  refine ⟨by decide, by decide, by decide, ?_, ?_, ?_⟩
  · intro n a q ha hq
    have h : ∀ n, ∀ a ∈ lawful.slot n, a.logSeq = some 1 ∧ carriesTag a.state = true := by decide
    obtain ⟨h1, h2⟩ := h n a ha
    rw [h1] at hq
    cases hq
    exact ⟨h2, by decide⟩
  · intro r hr _
    have h : ∀ r ∈ lawful.log.records, r.seq = 1 := by decide
    rw [h r hr]
    exact ⟨15, by decide⟩
  · intro m n q hm hn
    have h : ∀ m n, (lawful.slotSeq m).isSome = true → (lawful.slotSeq n).isSome = true → m = n := by decide
    exact h m n (by rw [hm]; rfl) (by rw [hn]; rfl)

theorem lawful_order : OrderOk lawful := by
  have h : ∀ n ∈ lawful.hold, lawful.heldAs n .order = true → lawful.blocked n = true := by decide
  exact h

theorem lawful_tables : TablesOk lawful := by
  have he : ∀ n : EntryNo, n = 0 ∧ lawful.entry n = { armed .hold 0 false with pendingReload := none } ∨
      lawful.entry n = WatchEntry.offValue := by decide
  refine ⟨fun n => ?_, by decide⟩
  rcases he n with ⟨rfl, h⟩ | h <;> rw [h] <;> constructor <;> decide +revert

theorem lawful_control : ControlOk lawful := by
  refine ⟨by decide, by decide, by decide, ?_, by decide, ?_⟩
  · intro h hh; cases hh
  · intro h; cases h

theorem lawful_console : ConsoleOk lawful := by
  constructor <;> decide

theorem witness_StepKeepsLaws :
    SlotsOk lawful ∧ TransitOk lawful ∧ LogOk lawful ∧ OrderOk lawful ∧ TablesOk lawful ∧ ControlOk lawful ∧
    ConsoleOk lawful ∧ ∃ t, step lawful = .next t :=
  ⟨lawful_slots, lawful_transit, lawful_log, lawful_order, lawful_tables, lawful_control, lawful_console, _, rfl⟩

/-- A held LOAD of near tag t, an ORDER slot but for the WATCH slot of a STORE; one to be carried out by substitution names
the record of its tag's number. -/
def ordered (t : NearTag) (r : HoldReason) (a : Nat) (z : Size) (p : Option PendAction) (o : Option EntryNo) : Access :=
  { heldItem r (if r = .watch then .store else .load) a z with
    tag := some t, pendAction := p, owner := o
    logSeq := if p = some .substitute then some (BitVec.ofNat 32 t.val) else none }

/-- Five held accesses: slot 0 is a WATCH STORE, slot 1 an ORDER slot that it blocks; the ORDER slots 2, 3 and 4 have no
blocker: slot 2 is to be forwarded, slot 3 to hit record 7, slot 4 to miss. -/
def orders : State :=
  let s := (up .watch).setEntry 15 (armed .subst 0 false)
  let s := s.setRecord 7 { valid := true, addr := 0, size := .eight, value := 0x1122334455667788, uses := 0xFFFF }
  let s := one 0 (ordered 0 .watch 0xFFFFFFF8 .eight none (some 15)) s
  let s := one 1 (ordered 1 .order 0xFFFFFFFF .one (some .forward) none) s
  let s := one 2 (ordered 2 .order 0x100 .four (some .forward) none) s
  let s := one 3 (ordered 3 .order 7 .one (some .substitute) (some 15)) s
  { one 4 (ordered 4 .order 8 .one (some .substitute) (some 15)) s with
    hold := [0, 1, 2, 3, 4]
    log := { s.log with records := [logged 3 (.opened none), logged 4 (.opened none)], counter := 4 } }

theorem orders_slots : SlotsOk orders := by
  have h : ∀ n, ∀ a ∈ orders.slot n, (a.tag.isSome = true ∧ a.holdReason.isSome = true ∧ a.state = .held ∧
      a.holdTimer = none ∧ a.farTimer = none ∧ a.disp ≠ .align) ∧
      (a.pendAction.isSome = true ↔ a.holdReason = some .order) ∧ (a.data.isSome = true ↔ a.cls = .store) := by decide
  intro n a ha
  obtain ⟨⟨h1, h2, h3, h4, h5, h6⟩, h7, h8⟩ := h n a ha
  constructor <;> simp [h1, h2, h3, h4, h5, h6, h7, h8]

theorem orders_transit : TransitOk orders := by
  refine ⟨by decide, by decide, by decide, by decide, by decide, by decide, ?_, by decide, ?_⟩
  · intro m n a b t ha hb _ _ hat hbt
    have h : ∀ m n, ∀ a ∈ orders.slot m, ∀ b ∈ orders.slot n, a.tag = b.tag → m = n := by decide
    exact h m n a ha b hb (hat.trans hbt.symm)
  · intro n a e _ _ he
    cases he

theorem orders_log : LogOk orders := by
  refine ⟨by decide, by decide, by decide, ?_, ?_, ?_⟩
  · intro n a q ha hq
    have h : ∀ n, ∀ a ∈ orders.slot n, carriesTag a.state = true ∧
        (a.logSeq = none ∨ a.logSeq = some 3 ∨ a.logSeq = some 4) := by decide
    obtain ⟨hc, h | h | h⟩ := h n a ha <;> rw [h] at hq <;> cases hq
    · exact ⟨hc, logged 3 (.opened none), .head _, rfl, rfl⟩
    · exact ⟨hc, logged 4 (.opened none), .tail _ (.head _), rfl, rfl⟩
  · intro r hr _
    change r ∈ [logged 3 (.opened none), logged 4 (.opened none)] at hr
    simp only [List.mem_cons, List.not_mem_nil, or_false] at hr
    rcases hr with rfl | rfl
    · exact ⟨3, by decide⟩
    · exact ⟨4, by decide⟩
  · intro m n q hm hn
    have h : ∀ m, orders.slotSeq m = none ∨ orders.slotSeq m = some (BitVec.ofNat 32 m.val) := by decide
    have h (m : SlotNo) (hm : orders.slotSeq m = some q) : q.toNat = m.val := by
      rcases h m with h | h <;> rw [h] at hm <;> cases hm
      simp only [BitVec.toNat_ofNat]; omega
    exact Fin.ext ((h m hm).symm.trans (h n hn))

theorem orders_blocked : Blocks orders 0 (ordered 1 .order 0xFFFFFFFF .one (some .forward) none) :=
  ⟨ordered 0 .watch 0xFFFFFFF8 .eight none (some 15), by decide, rfl, by decide, Or.inr rfl⟩

theorem orders_hits : Hits orders (ordered 3 .order 7 .one (some .substitute) (some 15)) 7 ∧
    ∀ k, ¬ Hits orders (ordered 4 .order 8 .one (some .substitute) (some 15)) k := by
  refine ⟨⟨15, rfl, by decide, by decide, by decide, by decide, by decide⟩, ?_⟩
  rintro k ⟨o, ho, _, hr, _, _, h2⟩
  have ho : (15 : EntryNo) = o := by cases ho; rfl
  subst ho
  have hk : (7 : RecordNo) = k := Option.some.inj ((by decide : (orders.entry 15).record = some 7).symm.trans hr)
  subst hk
  exact absurd h2 (by decide)

/-- In `orders` slot 0 stays, slot 1 stays behind it, and the slots 2, 3 and 4 leave: to the forward queue, by a hit and by
a miss. -/
theorem witness_ClearanceLaw :
    SlotsOk orders ∧ TransitOk orders ∧ (orders.heldAs 0 .order = false ∧ 0 ∈ orders.hold) ∧
    (1 ∈ orders.hold ∧ orders.slot 1 = some (ordered 1 .order 0xFFFFFFFF .one (some .forward) none) ∧
      0 ∈ orders.ahead 1 ∧ 0 ∈ orders.clearance.1.hold ∧
      Blocks orders 0 (ordered 1 .order 0xFFFFFFFF .one (some .forward) none)) ∧
    (orders.clearance.1.hold = [0, 1] ∧ orders.slot 2 = some (ordered 2 .order 0x100 .four (some .forward) none) ∧
      orders.slot 3 = some (ordered 3 .order 7 .one (some .substitute) (some 15)) ∧
      orders.slot 4 = some (ordered 4 .order 8 .one (some .substitute) (some 15))) ∧
    Hits orders (ordered 3 .order 7 .one (some .substitute) (some 15)) 7 ∧
    (∀ k, ¬ Hits orders (ordered 4 .order 8 .one (some .substitute) (some 15)) k) ∧ LogOk orders ∧
    SubstLeaves orders orders.clearance.1 3 (ordered 3 .order 7 .one (some .substitute) (some 15)) ∧
    SubstLeaves orders orders.clearance.1 4 (ordered 4 .order 8 .one (some .substitute) (some 15)) ∧
    (SlotsOk lawful ∧ TransitOk lawful ∧ ∀ n a, ¬ SubstLeaves lawful lawful.clearance.1 n a) :=
  ⟨orders_slots, orders_transit, by decide, ⟨by decide, by decide, by decide, by decide, orders_blocked⟩,
    ⟨by decide, by decide, by decide, by decide⟩, orders_hits.1, orders_hits.2, orders_log,
    ⟨by decide, by decide, by decide, rfl⟩, ⟨by decide, by decide, by decide, rfl⟩, lawful_slots, lawful_transit,
    fun n a h => (by decide : ∀ n, ∀ a ∈ lawful.slot n, a.pendAction ≠ some .substitute) n a h.access h.pending⟩

/-- The read of slot 3 takes the record's byte at its address, and the slots leave in queue order. -/
theorem test_clearance_order :
    orders.clearance.1.far.forward = [2, 4] ∧
    orders.clearance.1.near.responses = [{ tag := 3, reason := .ok, data := some 0x11, slot := some 3 }] := by decide

/-- R91, R93, R106: the hit closes its record with the byte read and leaves a full use count; the miss marks its record. -/
theorem test_clearance_tables :
    orders.clearance.1.record 7 = orders.record 7 ∧
    orders.clearance.1.log.records = [logged 3 (.closed .substituted (some .ok) (some 0x11)),
      logged 4 (.opened (some .substMiss))] := by decide

theorem witness_TagsBoundQueues : SlotsOk lawful ∧ TransitOk lawful := ⟨lawful_slots, lawful_transit⟩

/-! ## Witnesses: the verbs -/

/-- A part in GATED with preload running meets `Serves` for the preload stream, and a running part in any other state for the
console; the hypotheses below that speak of the rest of the state are met from both. -/
theorem witness_Serves : Serves (up .watch) .console ∧ Serves (up .gated) .preload :=
  ⟨ready_up _ (by decide), serves_gated⟩

theorem witness_FrResetsFarLink :
    let s := one 15 (item .issued .load 0 .one) (slotM .orphan none (up .watch))
    Serves s .console ∧ (reads [] readNone).isSome = true ∧ s.slotIs 15 .issued = true ∧ s.slot 0 = none ∧
    (∀ n b, s.slot n = some b → b.state = .issued → b.tag ≠ none) ∧
    (∀ m, s.transit.slotM = some m → m.state ≠ .queued) ∧ (∀ m, s.transit.slotM = some m → m.state ≠ .issued) ∧
    (slotM .queued none (up .watch)).slotMWaits = true ∧
    (slotM .issued none (up .watch)).transit.slotM.any (fun m => m.state == .issued) = true :=
  ⟨⟨rfl, by decide, rfl, rfl, rfl⟩, by decide, by decide, by decide,
    fun n b h _ => (by decide : ∀ n, ∀ b ∈ (one 15 (item .issued .load 0 .one)
      (slotM .orphan none (up .watch))).slot n, b.tag ≠ none) n b h,
    (by decide : ∀ m ∈ (slotM .orphan none (up .watch)).transit.slotM, m.state ≠ .queued),
    (by decide : ∀ m ∈ (slotM .orphan none (up .watch)).transit.slotM, m.state ≠ .issued), by decide, by decide⟩

theorem witness_ReportsChangeNothing :
    let s := { up .watch with log := { (up .watch).log with records := [logged 0xFFFFFFFF (.opened none)] } }
    Serves s .console ∧ (reads [] readNone).isSome = true ∧ (∀ n ∈ lawful.hold, lawful.slot n ≠ none) ∧
    reads [['F']] (readDigit 16) = some 15 ∧ reads ["FFFFFFFF".toList] readLr = some 0xFFFFFFFF ∧
    s.log.records[0]? = some (logged 0xFFFFFFFF (.opened none)) ∧ reads [['0']] readLr = some 0 ∧
    ∀ c ∈ s.log.records, c.seq ≠ 0 :=
  ⟨⟨rfl, by decide, rfl, rfl, rfl⟩, by decide, by decide, by decide, by decide, rfl, by decide, by decide⟩

theorem witness_SqReportsRecord :
    Serves (watching .subst) .console ∧ reads [['7']] (readDigit 8) = some 7 ∧ reads [['0']] (readDigit 8) = some 0 :=
  ⟨⟨rfl, by decide, rfl, rfl, rfl⟩, by decide, by decide⟩

/-- The operands of entry 1 in section 2.6, and its entry. -/
theorem witness_WsSetsEntry :
    reads ["1".toList, "B=20000100".toList, "L=200001FF".toList, "C=L".toList, "A=N".toList, "R=2".toList] readWs =
      some (1, countingEntry 2 none) ∧
    (up .watch).entry 1 = WatchEntry.offValue ∧
    (((up .watch).setEntry 1 (armed .note 0 false)).entry 1).state = .armed ∧
    (reads ["F".toList, "B=0".toList, "L=FFFFFFFF".toList, "A=S".toList, "S=7".toList, "F=T".toList] readWs).map Prod.fst =
      some 15 ∧
    (reads ["0".toList, "B=FFFFFFFF".toList, "C=s".toList, "M=0".toList, "A=H".toList, "O=1".toList, "F=F".toList] readWs).map
      Prod.fst = some 0 ∧
    (readOperands ["1".toList, "B=20000100".toList, "L=200001FF".toList, "C=L".toList, "A=N".toList, "R=2".toList]).isSome =
      true := by decide

/-- Table 2-5: `M=` alone gives a condition whose value is 0, an omitted limit is the base, and an arm source leaves DORMANT. -/
theorem test_ws_defaults :
    reads ["0".toList, "B=FFFFFFFF".toList, "C=s".toList, "M=F0".toList, "A=H".toList, "O=1".toList, "F=F".toList] readWs =
      some (0, { WatchEntry.offValue with
        state := .dormant, base := 0xFFFFFFFF, limit := 0xFFFFFFFF, classes := ⟨false, false, true⟩,
        cond := some { value := 0, mask := 0xF0 }, action := some .hold, once := true, armSource := some (.entry 15) }) := by
  decide

theorem witness_EntryVerbs :
    let st (e : EntryState) : State := (up .watch).setEntry 15 { armed .note 0 true with state := e }
    reads [['F'], "R=FFFF".toList] readWr = some (15, 0xFFFF) ∧ reads [['F']] (readDigit 16) = some 15 ∧
    (∀ e, ((st e).entry 15).state = e) ∧ ∀ e, Serves (st e) .console :=
  ⟨by decide, by decide, fun e => by cases e <;> decide, fun _ => ⟨rfl, (by decide : OpState.watch ≠ .gated), rfl, rfl, rfl⟩⟩

/-- The part with slot 15 held, and slot 0 ahead of it as a blocker or not. -/
theorem witness_HrReleases :
    let a := heldItem .watch .load 0xFFFFFFFC .four (some 0)
    let o := one 15 (heldItem .order .load 0 .one) (up .watch)
    reads [['F']] readOptDigit = some (some 15) ∧ reads [] readOptDigit = some none ∧
    (Serves (up .watch) .console ∧ ∀ b, (up .watch).slot 15 = some b → b.state ≠ .held) ∧
    (Serves o .console ∧ o.slot 15 = some (heldItem .order .load 0 .one)) ∧
    (Serves (behind (expiring .fail)) .console ∧ (behind (expiring .fail)).slot 15 = some a ∧ a.state = .held ∧
      a.holdReason ≠ some .order ∧ ∃ m ∈ (behind (expiring .fail)).ahead 15, Blocks (behind (expiring .fail)) m a) ∧
    (Serves (expiring .fail) .console ∧ (expiring .fail).slot 15 = some a ∧ 15 ∈ (expiring .fail).hold ∧
      a.holdReason = some .watch ∧ ∀ m, m ∉ (expiring .fail).ahead 15) ∧
    (up .watch).hold = [] :=
  ⟨by decide, by decide,
    ⟨ready_up _ (by decide), fun b h => absurd (h.symm.trans (by decide : (up .watch).slot 15 = none)) (by simp)⟩,
    ⟨⟨rfl, by decide, rfl, rfl, rfl⟩, by decide⟩,
    ⟨⟨rfl, by decide, rfl, rfl, rfl⟩, by decide, rfl, by decide, 0, by decide,
      heldItem .watch .store 0xFFFFFFF8 .eight, by decide, rfl, by decide, Or.inr rfl⟩,
    ⟨⟨rfl, by decide, rfl, rfl, rfl⟩, by decide, by decide, rfl, by decide⟩, rfl⟩

theorem witness_HaHfSettle :
    let ld := oneHeld 15 (heldItem .watch .load 0xFFFFFFFF .one) (up .watch)
    let st := oneHeld 15 (heldItem .watch .store 0xFFFFFFFF .one) (up .watch)
    reads [['F']] (readDigit 16) = some 15 ∧ reads [['F']] readHa = some (15, none) ∧
    reads [['F'], "V=FF".toList] readHa = some (15, some "FF".toList) ∧
    reads [['F'], "V=100".toList] readHa = some (15, some "100".toList) ∧
    (Serves ld .console ∧ ld.slot 15 = some (heldItem .watch .load 0xFFFFFFFF .one) ∧ hexNum "FF".toList = some 0xFF ∧
      0xFF < 2 ^ (8 * sizeBytes .one) ∧ hexNum "100".toList = some 0x100 ∧ 2 ^ (8 * sizeBytes .one) ≤ 0x100) ∧
    (Serves st .console ∧ st.slot 15 = some (heldItem .watch .store 0xFFFFFFFF .one)) ∧
    (heldItem .watch .store 0xFFFFFFFF .one).tag = some 7 ∧ (up .watch).slot 15 = none :=
  ⟨by decide, by decide, by decide, by decide, ⟨⟨rfl, by decide, rfl, rfl, rfl⟩, by decide, by decide, by decide, by decide,
    by decide⟩, ⟨⟨rfl, by decide, rfl, rfl, rfl⟩, by decide⟩, rfl, by decide⟩

/-- `RA` and `CL` on a part with held accesses of every kind that may leave (those of `orders`, by `witness_ClearanceLaw`). -/
theorem witness_RaEmptiesHoldQueue :
    Serves orders .console ∧ (reads [] readNone).isSome = true ∧ SlotsOk orders ∧ TransitOk orders ∧ LogOk orders ∧
    orders.hold = [0, 1, 2, 3, 4] ∧ 15 ∉ orders.hold ∧
    (Serves lawful .console ∧ ∀ n ∈ lawful.hold, ∀ a ∈ lawful.slot n, a.pendAction ≠ some .substitute) :=
  ⟨⟨rfl, by decide, rfl, rfl, rfl⟩, by decide, orders_slots, orders_transit, orders_log, rfl, by decide,
    ⟨rfl, by decide, rfl, rfl, rfl⟩, by decide⟩

/-- Slot 0 is released, and then slot 1 has no blocker left. -/
theorem test_ra_order :
    (after (.ra .console []) orders).far.forward = [0, 1, 2, 4] ∧
    (after (.ra .console []) orders).console.tx = .response "= 1 4".toList := by decide

theorem witness_ClClears :
    (Serves orders .console ∧ SlotsOk orders ∧ TransitOk orders) ∧ (reads [] readNone).isSome = true ∧
    (Serves lawful .console ∧ SlotsOk lawful ∧ TransitOk lawful ∧ lawful.slotSeq 15 = some 1 ∧
      ∀ n ∈ lawful.hold, ∀ a ∈ lawful.slot n, a.pendAction ≠ some .substitute) :=
  ⟨⟨⟨rfl, by decide, rfl, rfl, rfl⟩, orders_slots, orders_transit⟩, by decide,
    ⟨rfl, by decide, rfl, rfl, rfl⟩, lawful_slots, lawful_transit, by decide, by decide⟩

theorem witness_RecordVerbs :
    reads [['7'], "A=FFFFFFF8".toList, "Z=8".toList, "V=FFFFFFFFFFFFFFFF".toList] readSs =
      some (7, { valid := true, addr := 0xFFFFFFF8, size := .eight, value := 0xFFFFFFFFFFFFFFFF, uses := 0 }) ∧
    reads [['7']] (readDigit 8) = some 7 := by decide

theorem witness_LogVerbs :
    let log (r : List CaptureRecord) : State := { up .watch with log := { (up .watch).log with records := r } }
    let done := logged 1 (.closed .forwarded (some .ok) (some 0))
    (∀ r, Serves (log r) .console) ∧ (reads [] readNone).isSome = true ∧ (log []).log.records = [] ∧
    (log [logged 1 (.opened none)]).log.records = logged 1 (.opened none) :: [] ∧
    (log [done]).log.records = done :: [] ∧ reads [] readLm = some none ∧ reads [['W']] readLm = some (some .wrap) ∧
    reads [['S']] readLm = some (some .stop) :=
  ⟨fun _ => ⟨rfl, (by decide : OpState.watch ≠ .gated), rfl, rfl, rfl⟩, by decide, rfl, rfl, rfl, by decide, by decide, by decide⟩

theorem witness_AkAcknowledges :
    let s := { up .watch with alerts := [2, 15] }
    Serves s .console ∧ reads [] readOptDigit = some none ∧ reads [['F']] readOptDigit = some (some 15) ∧ 15 ∈ s.alerts ∧
    reads [['0']] readOptDigit = some (some 0) ∧ 0 ∉ s.alerts ∧ (up .watch).alerts = [] :=
  ⟨⟨rfl, by decide, rfl, rfl, rfl⟩, by decide, by decide, by decide, by decide, by decide, rfl⟩

theorem witness_StateVerbs :
    (reads [] readNone).isSome = true ∧ Ready (up .bypass) ∧ Ready (up .watch) ∧
    (Ready (up .frozen) ∧ (up .frozen).ctrl.op = .frozen ∧ (up .frozen).ctrl.ret = some .watch) ∧
    Serves (up .gated) .preload :=
  ⟨by decide, ready_up _ (by decide), ready_up _ (by decide), ⟨ready_up _ (by decide), rfl, rfl⟩, serves_gated⟩

theorem witness_SpSetsParameters :
    let p := (up .watch).ctrl.params
    reads ["H=FFFF".toList, "Q=1".toList] (readSp p) = some { p with holdLimit := 0xFFFF, quiet := true } ∧
    reads ["D=3".toList, "Y=O".toList] (readSp p) = some { p with baud := 3, parity := .odd } ∧
    (readOperands ["H=FFFF".toList, "Q=1".toList]).isSome = true ∧ (readOperands ["D=3".toList, "Y=O".toList]).isSome = true ∧
    (¬ ((3 : BitVec 2) = p.baud ∧ Parity.odd = p.parity)) ∧ (up .gated).console.tx = .idle ∧
    ({ up .gated with console := { (up .gated).console with tx := .notice .nr } } : State).console.tx ≠ .idle := by decide

theorem witness_MaSetsCursor :
    reads ["A=FFFFFFF8".toList, "Z=8".toList] (readMa (up .watch).mem) = some (0xFFFFFFF8, .eight) ∧
    reads [] (readMa (up .watch).mem) = some (0, .four) ∧
    (readOperands ["A=FFFFFFF8".toList, "Z=8".toList]).isSome = true ∧ (readOperands []).isSome = true := by decide

/-- R179: the cursor at 2000_0004h size 4 refuses `MA Z=8`; with `A=20000008` as well it moves. -/
theorem test_ma_alignment :
    let m : Mem := { cursorAddr := 0x20000004, cursorSize := .four, inHand := none }
    reads ["Z=8".toList] (readMa m) = none ∧ reads ["A=20000008".toList, "Z=8".toList] (readMa m) = some (0x20000008, .eight) := by
  decide

theorem witness_MrMwBeginAccess :
    reads ["A=FFFFFFFF".toList, "Z=1".toList] (readMa (up .watch).mem) = some (0xFFFFFFFF, .one) ∧
    reads ["V=FFFFFFFF".toList] (readMw (up .watch).mem) = some (0, .four, 0xFFFFFFFF) ∧
    (readOperands ["V=FFFFFFFF".toList]).isSome = true ∧
    (up .watch).transit.slotM = none ∧ (slotM .orphan none (up .watch)).transit.slotM ≠ none := by decide

theorem witness_BadOperandsRefused :
    accepts .fr (up .watch) [['0']] = false ∧ accepts .ws (up .watch) [] = false ∧
    accepts .ma (up .gated) ["A=1".toList] = false ∧ accepts .sq (up .gated) [['8']] = false ∧
    accepts .wx (up .gated) ["10".toList] = false ∧
    Serves (up .watch) .console ∧ Serves (up .gated) .preload :=
  ⟨by decide, by decide, by decide, by decide, by decide, ready_up _ (by decide), serves_gated⟩

/-- Operands that break each case of R166, at its limit where it has one. -/
theorem witness_BreaksGrammar :
    BreaksGrammar ["1.2".toList] ∧ BreaksGrammar ["AB=5".toList] ∧ BreaksGrammar ["A=".toList] ∧
    BreaksGrammar ["A=5=6".toList] ∧ BreaksGrammar ["A=01234567012345670".toList] ∧ BreaksGrammar ["012345678".toList] ∧
    BreaksGrammar ["a=1".toList, "A=2".toList] ∧ BreaksGrammar ["A=1".toList, "1".toList] :=
  ⟨.character ⟨_, .head _, '.', by decide, by simp [Written, Letter], by decide⟩,
    .letter ⟨_, .head _, by decide, by rintro ⟨k, v, h, _⟩; simp at h⟩,
    .emptyValue ⟨_, .head _, 'A', by decide⟩, .twoEquals ⟨_, .head _, by decide⟩,
    .longValue ⟨_, .head _, 'A', "01234567012345670".toList, by decide, by decide⟩,
    .longPos ⟨_, .head _, by decide, by decide⟩,
    .twice ⟨0, 1, 'a', 'A', ['1'], ['2'], by decide, by decide, by decide, by decide⟩,
    .posAfter ⟨0, 1, "A=1".toList, "1".toList, by decide, by decide, by decide, by decide, by decide⟩⟩

/-- Operands of eight and of sixteen characters, which break no case, as they are read. -/
theorem test_written :
    readOperands ["abcdefgh".toList, "V=0123456789abcdef".toList] =
      some { pos := ["ABCDEFGH".toList], kws := [('V', "0123456789ABCDEF".toList)] } ∧
    written ["abcdefgh".toList, "V=0123456789abcdef".toList] =
      { pos := ["ABCDEFGH".toList], kws := [('V', "0123456789ABCDEF".toList)] } := by decide

theorem witness_LinesNotExecuted :
    let overran (s : State) : State := { s with console := { s.console with overrun := true } }
    ((up .gated).running ∧ (up .gated).ctrl.op = .gated ∧ (up .gated).console.inService = none ∧
      sendingResponse (up .gated).console = false) ∧
    ((overran (up .watch)).ctrl.op ≠ .gated ∧ (overran (up .watch)).console.overrun = true ∧
      (overran (up .watch)).console.inService = none) ∧
    ((serving .responding false (up .watch)).console.inService.isSome = true ∧
      (serving .responding false (up .watch)).console.waiting = none ∧
      (serving .responding false (up .watch)).console.assembling = none) ∧
    (let s := serving .responding false (up .watch);
      ({ s with console := { s.console with assembling := some Assembly.empty } } : State).console.assembling ≠ none) ∧
    (inHand .preload (up .gated)).preloadWaits = true := by decide

/-! ## Witnesses: the console line and the preload stream -/

/-- A line being assembled. -/
def assembling (t : Text) (m : Option Mark) (s : State) : State :=
  { s with console := { s.console with assembling := some { text := t, mark := m } } }

/-- A good frame with parity none. -/
def frame (b : Byte) : RxFrame := { data := b, parityBit := false, stopHigh := true, begunWith := none }

theorem witness_CharacterInLine :
    let s := assembling (List.replicate 71 'A') none (up .watch)
    let full := assembling (List.replicate 72 'A') none (up .watch)
    (s.running ∧ s.console.assembling.isSome = true ∧ badFrame .none { frame 0x41 with stopHigh := false } = true ∧
      badFrame .even { frame 0x41 with parityBit := true, begunWith := some .even } = true) ∧
    (∀ b ∈ ([0x20, 0x7E, 0x08, 0x1B, 0x0A, 0x00, 0x1F, 0x7F, 0xFF, 0x0D] : List Byte), badFrame .none (frame b) = false) ∧
    (s.console.assembling.any (fun a => decide (a.text.length < 72)) = true ∧
      full.console.assembling.any (fun a => decide (a.text.length < 72)) = false) ∧
    (serving .executing false s).console.inService.isSome = true ∧ s.console.inService = none := by decide

theorem witness_CharacterBeginsLine :
    let s := serving .executing false (up .watch)
    let full := { s with console := { s.console with
      waiting := some { text := [], mark := none, overrun := false } } }
    ((up .watch).running ∧ (up .watch).console.assembling = none ∧ (up .watch).console.waiting = none) ∧
    (full.running ∧ full.console.assembling = none ∧ full.console.waiting.isSome = true ∧
      full.console.inService.isSome = true) ∧
    (∀ b ∈ ([0x0A, 0x41, 0x08, 0x1B, 0x20, 0x7E, 0x00, 0x1F, 0x7F, 0xFF, 0x0D] : List Byte),
      badFrame .none (frame b) = false) ∧
    badFrame .none { frame 0x0A with stopHigh := false } = true ∧
    (s.running ∧ s.console.assembling = none ∧ s.console.inService.isSome = true ∧ s.console.waiting = none) ∧
    (∀ o, (up o).console.inService = none ∧ sendingResponse (up o).console = false) := by
  refine ⟨by decide, by decide, by decide, by decide, by decide, fun o => by cases o <;> decide⟩

/-- An empty line is answered `=` at its CR, and a bad character begins a line marked FR. -/
theorem test_character_begins :
    (after (.character { data := 0x0D, parityBit := false, stopHigh := true, begunWith := none }) (up .watch)).console.tx =
      .response ['='] ∧
    (after (.character { data := 0x0D, parityBit := false, stopHigh := false, begunWith := none }) (up .watch)).console.assembling =
      some { text := [], mark := some .fr } := by decide

theorem witness_LineTests :
    let s := assembling "mr A=0".toList none (up .watch)
    (s.running ∧ badFrame .none (frame 0x0D) = false ∧ (frame 0x0D).data = 0x0D ∧ s.console.inService = none ∧
      sendingResponse s.console = false ∧ s.ctrl.op ≠ .gated ∧ s.console.overrun = false) ∧
    tokens "mr A=0".toList = "mr".toList :: ["A=0".toList] ∧ "mr".toList.map upper = verbText .mr ∧
    tokens "XX".toList = "XX".toList :: [] ∧ (∀ v ∈ allVerbs, "XX".toList.map upper ≠ verbText v) ∧
    (∀ v : Verb, v ∈ allVerbs) ∧ (∀ c ∈ [' ', ' '], c = ' ') ∧ (up .gated).ctrl.op = .gated := by
  refine ⟨by decide, by decide, by decide, by decide, by decide, fun v => by cases v <;> decide, by simp, rfl⟩

theorem witness_TypedLineIsCommand :
    (up .watch).running ∧ (up .watch).console.assembling = none ∧ settle (up .watch).console = (up .watch).console ∧
    operandsOk ["A=FFFFFFFF".toList, "Z=1".toList] = true ∧ operandsOk [List.replicate 69 'A'] = true :=
  ⟨by decide, by decide, by decide, by decide, by decide⟩

theorem witness_StreamedLineIsCommand :
    Serves (up .gated) .preload ∧ (up .gated).preload.line = { text := [], mark := none } ∧
    (up .gated).preload.atStart = true ∧ settle (up .gated).console = (up .gated).console ∧ operandsOk [] = true ∧
    65532 + (lineText .go []).length + 1 < 65536 ∧ (up .gated).preload.offset + (lineText .go []).length + 1 < 65536 :=
  ⟨serves_gated, by decide, by decide, by decide, by decide, by decide, by decide⟩

/-- A GATED part at an offset of the stream. -/
def reading (offset : Nat) (atStart : Bool) (m : Option Mark) (text : Text := []) : State :=
  { up .gated with preload := { (up .gated).preload with
    offset := offset, atStart := atStart, line := { text := text, mark := m } } }

theorem witness_StreamByte :
    ((up .watch).running ∧ (up .watch).ctrl.op ≠ .gated) ∧ (inHand .preload (up .gated)).preloadWaits = true ∧
    65536 ≤ (reading 65536 true none).preload.offset ∧
    (Serves (reading 65535 true none) .preload ∧ (reading 65535 true none).preload.offset = 65535 ∧
      (reading 65535 true none).preload.atStart = true) ∧
    (Serves (reading 65535 false none) .preload ∧ (reading 65535 false none).preload.atStart = false) ∧
    (Serves (reading 65534 false (some .ll)) .preload ∧ (reading 65534 false (some .ll)).preload.offset < 65535 ∧
      (reading 65534 false (some .ll)).preload.line.mark = some .ll) ∧
    (tokens [' ', ' '] = [] ∧ tokens "XX 1".toList = "XX".toList :: ["1".toList] ∧
      ∀ v ∈ allVerbs, "XX".toList.map upper ≠ verbText v) :=
  ⟨by decide, by decide, by decide, ⟨⟨rfl, rfl, rfl⟩, rfl, rfl⟩, ⟨⟨rfl, rfl, rfl⟩, rfl⟩, ⟨⟨rfl, rfl, rfl⟩, by decide, rfl⟩,
    by decide⟩

/-- The lines that a CR at offset FFFFh completes: `SP H=1` leaves the part GATED, its console as it was; `MR` waits; `GO`
leaves GATED. -/
theorem witness_StreamByte_lines :
    let row (v : Verb) (ws : List Token) : State := after (verbRow v .preload ws) (reading 65536 true none)
    Serves (reading 65535 false none "sp h=1".toList) .preload ∧
    (tokens "sp h=1".toList = "sp".toList :: ["h=1".toList] ∧ "sp".toList.map upper = verbText .sp) ∧
    ((row .sp ["h=1".toList]).ctrl.op = .gated ∧ (row .sp ["h=1".toList]).preloadWaits = false ∧
      (row .sp ["h=1".toList]).console = (reading 65535 false none "sp h=1".toList).console ∧
      settle (reading 65535 false none "sp h=1".toList).console = (reading 65535 false none "sp h=1".toList).console) ∧
    (row .mr []).preloadWaits = true ∧ (row .go []).ctrl.op ≠ .gated :=
  ⟨⟨rfl, rfl, rfl⟩, by decide, by decide, by decide, by decide⟩

/-- R149: the line that ends at offset FFFFh is executed, and PS follows; an access that the line begins comes first. -/
theorem test_stream_limit :
    (after (.byteEvent 0x0D) (reading 65535 false none "SP H=1".toList)).console.tx = .notice (.plEr 2 .ps) ∧
    (after (.byteEvent 0x0D) (reading 65535 false none "SP H=1".toList)).ctrl.params.holdLimit = 1 ∧
    (after (.farResponse { tag := 16, ok := true, lanes := 0 }) (after .issue
      (after (.byteEvent 0x0D) (reading 65535 false none "MR".toList)))).console.tx = .notice (.plEr 2 .ps) := by decide

theorem witness_BreakAborts :
    let st (g : Stage) (b : Bool) : State := serving g b (up .watch)
    let sending : State := { st .responding false with console := { (st .responding false).console with tx := .response ['='] } }
    ((up .watch).running ∧ (up .watch).ctrl.op ≠ .gated ∧ (up .watch).console.inService = none) ∧
    (st .executing false).console.inService.any (fun v => v.stage == .executing) = true ∧
    (st .responding false).console.inService.any (fun v => v.stage == .responding && !v.settings) = true ∧
    (st .responding true).console.inService.any (fun v => v.stage == .responding && v.settings) = true ∧
    sendingResponse (st .responding true).console = false ∧ sendingResponse sending.console = true ∧
    ((up .gated).ctrl.op = .gated ∧ (up .gated).console.inService = none) ∧
    (∀ t ∈ [Tx.notice .nr, .response ['?', 'P', 'L']],
      let s : State := { serving .responding false (up .gated) with
        console := { (serving .responding false (up .gated)).console with tx := t } };
      s.ctrl.op = .gated ∧ s.console.tx ≠ .idle ∧
        s.console.inService.any (fun v => v.stage == .responding && !v.settings) = true) := by decide

/-- A break that suppresses the response of an `SP` while a notice is being sent: parity ODD is in use at once, and the
notice goes out under the parity NONE that it was begun under. -/
theorem test_break_keeps_frames :
    let s := serving .responding true (up .watch)
    let s := { s with
      ctrl := { s.ctrl with params := { s.ctrl.params with parity := .odd } }
      console := { s.console with tx := .notice .nr } }
    let t := after .breakEvent s
    t.console.parityInUse = .odd ∧ t.txdFrames = s.txdFrames ∧ (after .lineSent t).console.txSettings.parity = .odd := by
  decide

theorem witness_LineSentGoesOn :
    let st (b : Bool) (t : Tx) (r : Option (List Text)) : State :=
      { serving .responding b (up .watch) with console := { (serving .responding b (up .watch)).console with
        tx := t, response := r } }
    ((up .watch).running ∧ (up .watch).console.settingsDue = false ∧ (up .watch).console.tx = .idle) ∧
    (let s := st false (.notice .nr) none;
      ({ s with console := { s.console with settingsDue := true } } : State).running ∧ s.console.tx = .notice .nr) ∧
    (st false (.notice .nr) none).console.tx = .notice .nr ∧ (st false (.lost 255 .nr) none).console.tx = .lost 255 .nr ∧
    ((st false (.notice .nr) none).console.begunUnder.getD { baud := 0, parity := .none } = { baud := 0, parity := .none } ∧
      (st false (.response ['-']) none).console.tx = .response ['-']) ∧
    (st false (.response ['-']) (some [['=']])).console.response = some (['='] :: []) ∧
    ((st true (.response ['=']) (some [])).console.response = some [] ∧
      (st true (.response ['=']) (some [])).console.waiting = none ∧
      (st true (.response ['=']) (some [])).console.inService.any Service.settings = true) ∧
    ∀ b, (waitingToo (st b (.response ['=']) (some []))).console.waiting =
        some { text := ['S', 'T'], mark := none, overrun := false } ∧
      (waitingToo (st b (.response ['=']) (some []))).console.response = some [] ∧
      (waitingToo (st b (.response ['=']) (some []))).console.inService.any (fun v => v.settings == b) = true := by decide

/-- R153, R168, R174: a line is its characters and then CR LF, each in its frame; R173 and Table 8-3 give these two lines. -/
theorem test_line_frames :
    framesOf .none ['='] = [[false, true, false, true, true, true, true, false, false, true],
      [false, true, false, true, true, false, false, false, false, true],
      [false, false, true, false, true, false, false, false, false, true]] ∧
    lostText 0x0A = "^NL 0A".toList ∧ refusalText .bo = "?BO".toList := by decide

/-- What a line that enters service may be: every test of R163 has a line. -/
theorem witness_Enters :
    (up .gated).ctrl.op = .gated ∧ (up .watch).ctrl.op ≠ .gated ∧ tokens [' ', ' '] = [] ∧
    (tokens "  xx 1".toList = "xx".toList :: ["1".toList] ∧ ∀ v ∈ allVerbs, "xx".toList.map upper ≠ verbText v) ∧
    (tokens " hr  F ".toList = "hr".toList :: ["F".toList] ∧ "hr".toList.map upper = verbText .hr) := by decide

/-- R144: the settings of an `SP` are in use before the line that waited is answered. -/
theorem test_settings_before_next :
    let s := waitingToo (serving .responding true (up .watch))
    let s := { s with
      ctrl := { s.ctrl with params := { s.ctrl.params with parity := .odd } }
      console := { s.console with tx := .response ['='], response := some [] } }
    (after .lineSent s).console.txSettings.parity = .odd ∧
    (after .lineSent s).console.tx = .response "= WATCH - 0 FREE 0 0 0 0 0000 00000001 W - 00 0000 R 03E8 0 0 0 O".toList := by
  decide

theorem witness_HexReadsBack : 0 < 16 ^ (0 + 1) ∧ 15 < 16 ^ (0 + 1) ∧ 0xFFFFFFFFFFFFFFFF < 16 ^ (15 + 1) := by decide

end Sys2Proof.Machine.Tests
end

section
/-! PROOFS. `SQ` (R98): what a verb that takes one digit reads, and the report of a substitution record. -/

namespace Sys2Proof.Machine

/-! ### The operand readers -/

theorem reads_eq_some_iff {α : Type} (ops : List Token) (f : Operands → Option α) (a : α) :
    reads ops f = some a ↔ ∃ o, readOperands ops = some o ∧ f o = some a :=
  Option.bind_eq_some_iff

theorem hexNum_singleton (c : Char) : hexNum [c] = hexVal c := by
  cases h : hexVal c <;> simp [hexNum, hexNumFrom, h]

theorem oneDigit_singleton_iff {k : Nat} (c : Char) (n : Fin k) : oneDigit k [c] = some n ↔ hexVal c = some n.val := by
  simp only [oneDigit]
  cases hexVal c with
  | none => simp
  | some d =>
    by_cases hd : d < k
    · simp [hd, Fin.ext_iff]
    · have : d ≠ n.val := fun h => hd (h ▸ n.isLt)
      simp [hd, this]

theorem oneDigit_eq_some_iff {k : Nat} (t : Text) (n : Fin k) :
    oneDigit k t = some n ↔ t.length = 1 ∧ hexNum t = some n.val := by
  match t with
  | [] => simp [oneDigit]
  | [c] => simp [oneDigit_singleton_iff, hexNum_singleton]
  | _ :: _ :: _ => simp [oneDigit]

/-- The operands that `readDigit` takes: one digit below the bound, and no keyword (R45, R74, R95). -/
theorem readDigit_eq_some_iff {k : Nat} (o : Operands) (n : Fin k) :
    readDigit k o = some n ↔ o.kws = [] ∧ DigitIs o n.val := by
  obtain ⟨pos, kws⟩ := o
  match pos, kws with
  | [], _ => simp [readDigit, DigitIs]
  | [p], [] => simp [readDigit, DigitIs, oneDigit_eq_some_iff]
  | [_], _ :: _ => simp [readDigit]
  | _ :: _ :: _, _ => simp [readDigit, DigitIs]

theorem reads_readDigit_iff {k : Nat} (ops : List Token) (n : Fin k) :
    reads ops (readDigit k) = some n ↔ OneDigit ops n.val := by
  simp only [reads_eq_some_iff, readDigit_eq_some_iff, OneDigit]

/-! ### `SQ` -/

/-- The report with each field spelled out (Table 10-8, R191). -/
theorem substReport_eq (n : RecordNo) (r : SubstRecord) :
    substReport n r = [[hexChar n.val], [if r.valid then '1' else '0'], hexFixed 8 r.addr.toNat,
      [hexChar (sizeBytes r.size)], hexFixed (2 * sizeBytes r.size) r.value.toNat, hexFixed 4 r.uses.toNat] := by
  have hflag : flagText r.valid = [if r.valid then '1' else '0'] := by cases r.valid <;> rfl
  simp only [substReport, hflag, digit, hexWord, sizeText, hexData, hexCount]

/-- `SQ` answers with the record's report and leaves the state as it is (R98). -/
theorem runVerb_sq {ops : List Token} {n : RecordNo} (h : reads ops (readDigit 8) = some n) (src : Source) (s : State) :
    runVerb .sq src ops s = (s, .lines [fields '=' (substReport n (s.record n))]) := by
  obtain ⟨o, hops, hn⟩ := (reads_eq_some_iff ops _ n).1 h
  simp only [runVerb_of_read hops, verbRule, cmdSq, hn, answerFields]

/-- An `SQ` line changes its source's port alone, and is accepted with the record's report (R98, R148). -/
theorem exec_sq {s : State} {src : Source} {ops : List Token} {n : RecordNo} (hs : Serves s src)
    (h : reads ops (readDigit 8) = some n) :
    ∃ t, exec (.sq src ops) s = .next t ∧ t = { s with console := t.console, preload := t.preload } ∧
      Accepted s t src .sq ops [] [fields '=' (substReport n (s.record n))] := by
  have gated : src = .preload → s.ctrl.op = .gated := by
    rintro rfl
    obtain ⟨-, hop, -⟩ := hs
    exact hop
  exact exec_accepted (v := .sq) (ns := []) hs (runVerb_sq h src s) rfl rfl gated

/-- A record at power-on as the manual prints it in section 4.5. -/
theorem fields_substReport_reset :
    fields '=' (substReport 5 (State.reset.record 5)) = "= 5 0 00000000 1 00 0000".toList := by decide

/-- Settles O29: the report and its frame by `exec_sq`, the operand by `reads_readDigit_iff`. -/
theorem sqReportsRecord : Obligations.SqReportsRecord := by
  unfold Obligations.SqReportsRecord
  refine ⟨fun s src ops n hs h => ?_, reads_readDigit_iff, fields_substReport_reset⟩
  rw [← substReport_eq]
  exact exec_sq hs h

end Sys2Proof.Machine
end

section
/-! PROOFS. `AK` (R127, R128): its optional digit, the alert set it leaves, and its answers. -/

namespace Sys2Proof.Machine

/-! ### The operand reader -/

/-- Each operand token leaves a positional or a keyword operand, so only a line without tokens reads as no operands. -/
theorem readOperands_eq_empty_iff (ops : List Token) : readOperands ops = some { pos := [], kws := [] } ↔ ops = [] := by
  cases ops with
  | nil => simp [readOperands]
  | cons t ts =>
    simp only [readOperands, reduceCtorEq, iff_false]
    split
    · simp
    · split <;> simp
    · simp

theorem readOptDigit_eq_none_iff (o : Operands) : readOptDigit o = some none ↔ o = { pos := [], kws := [] } := by
  obtain ⟨pos, kws⟩ := o
  match pos, kws with
  | [], [] => simp [readOptDigit]
  | [], _ :: _ => simp [readOptDigit]
  | [_], [] => simp [readOptDigit]
  | [_], _ :: _ => simp [readOptDigit]
  | _ :: _ :: _, _ => simp [readOptDigit]

/-- A digit that the optional reader takes is one that the required reader takes. -/
theorem readOptDigit_eq_some_iff (o : Operands) (n : Fin 16) : readOptDigit o = some (some n) ↔ readDigit 16 o = some n := by
  obtain ⟨pos, kws⟩ := o
  match pos, kws with
  | [], [] => simp [readOptDigit, readDigit]
  | [], _ :: _ => simp [readOptDigit, readDigit]
  | [_], [] => simp [readOptDigit, readDigit]
  | [_], _ :: _ => simp [readOptDigit, readDigit]
  | _ :: _ :: _, _ => simp [readOptDigit, readDigit]

theorem reads_readOptDigit_none_iff (ops : List Token) : reads ops readOptDigit = some none ↔ ops = [] := by
  simp only [reads_eq_some_iff, readOptDigit_eq_none_iff, exists_eq_right, readOperands_eq_empty_iff]

theorem reads_readOptDigit_some_iff (ops : List Token) (n : Fin 16) :
    reads ops readOptDigit = some (some n) ↔ OneDigit ops n.val := by
  rw [← reads_readDigit_iff]
  simp only [reads_eq_some_iff, readOptDigit_eq_some_iff]

/-! ### The verb's rule -/

/-- `AK` alone empties the alert set and answers with its size (R128). -/
theorem runVerb_ak_all {ops : List Token} (h : reads ops readOptDigit = some none) (src : Source) (s : State) :
    runVerb .ak src ops s = ({ s with alerts := [] }, .lines [fields '=' [hexPlain s.alerts.length]]) := by
  obtain ⟨o, hops, hnone⟩ := (reads_eq_some_iff ops _ none).1 h
  simp only [runVerb_of_read hops, verbRule, cmdAk, hnone, answerFields]

/-- `AK n` removes a member of the alert set and answers with its number (R128). -/
theorem runVerb_ak_member {ops : List Token} {n : EntryNo} {s : State} (h : reads ops readOptDigit = some (some n))
    (hmem : n ∈ s.alerts) (src : Source) :
    runVerb .ak src ops s =
      ({ s with alerts := s.alerts.filter (fun e => e != n) }, .lines [fields '=' [[hexChar n.val]]]) := by
  obtain ⟨o, hops, hn⟩ := (reads_eq_some_iff ops _ (some n)).1 h
  have hcontains : s.alerts.contains n = true := List.contains_iff_mem.2 hmem
  simp only [runVerb_of_read hops, verbRule, cmdAk, hn, hcontains, if_true, answerFields, digit]

/-- `AK n` is refused `?NF` when the number is not in the alert set (R128). -/
theorem runVerb_ak_notFound {ops : List Token} {n : EntryNo} {s : State} (h : reads ops readOptDigit = some (some n))
    (hmem : n ∉ s.alerts) (src : Source) : runVerb .ak src ops s = (s, .refused .nf) := by
  obtain ⟨o, hops, hn⟩ := (reads_eq_some_iff ops _ (some n)).1 h
  have hcontains : ¬ s.alerts.contains n = true := fun hc => hmem (List.contains_iff_mem.1 hc)
  simp only [runVerb_of_read hops, verbRule, cmdAk, hn, if_neg hcontains]

/-! ### The line of `AK` -/

/-- A preload line is executed in GATED only (R146, R148). -/
theorem gated_of_serves_preload {s : State} {src : Source} (hs : Serves s src) (hsrc : src = .preload) :
    s.ctrl.op = .gated := by
  subst hsrc
  obtain ⟨-, hop, -⟩ := hs
  exact hop

/-- A rule of `AK` that gives the alert set a new value and answers on one line changes, as a line, that set and its source's
port alone (R127, R148). -/
theorem exec_ak_accepted {s : State} {src : Source} {ops : List Token} {left : List EntryNo} {x : Text} (hs : Serves s src)
    (hr : runVerb .ak src ops s = ({ s with alerts := left }, .lines [x])) :
    ∃ t, exec (.ak src ops) s = .next t ∧
      t = { s with alerts := left, console := t.console, preload := t.preload } ∧
      Accepted s t src .ak ops [] [x] := by
  have gated : src = .preload → s.ctrl.op = .gated := gated_of_serves_preload hs
  exact exec_accepted (v := .ak) (ns := []) hs hr rfl rfl gated

/-- ALERT is negated when the alert set is empty (R125). -/
theorem State.alertLine_of_alerts_nil {s : State} (h : s.alerts = []) : s.alertLine = false := by
  simp [State.alertLine, h]

/-- Settles O37: the three outcomes of `AK`'s rule (the whole set, a member, no member) as lines, and the operand by
`reads_readOptDigit_none_iff` and `reads_readOptDigit_some_iff`. -/
theorem akAcknowledges : Obligations.AkAcknowledges := by
  unfold Obligations.AkAcknowledges
  refine ⟨fun s src ops hs h => ?_, fun ops => ⟨reads_readOptDigit_none_iff ops, reads_readOptDigit_some_iff ops⟩,
    fun s src ops n hs h => ⟨fun hmem => ?_, fun hmem => ?_⟩⟩
  · obtain ⟨t, hexec, hframe, hanswer⟩ := exec_ak_accepted hs (runVerb_ak_all h src s)
    have hempty : t.alerts = [] := by rw [hframe]
    have hzero : s.alerts = [] → fields '=' [hexPlain s.alerts.length] = ['=', ' ', '0'] := by
      intro hnil
      rw [hnil]
      decide
    exact ⟨t, hexec, hframe, State.alertLine_of_alerts_nil hempty, hanswer, hzero⟩
  · exact exec_ak_accepted hs (runVerb_ak_member h hmem src)
  · exact exec_refused (v := .ak) hs (runVerb_ak_notFound h hmem src)

end Sys2Proof.Machine
end

section
/-! PROOFS. A character of a line being assembled (R158 to R162): what line assembly does with each byte, and what the
service of a completed line leaves of the console port. -/

namespace Sys2Proof.Machine

/-! ### The console port under the rules of the verbs -/

/-- The console port `d` is `c` but for the notice queue and its count of lost notices (R171, R172). -/
def NoticesApart (c d : Console) : Prop := d = { c with notices := d.notices, noticesLost := d.noticesLost }

theorem NoticesApart.of_eq {c d : Console} (h : d = c) : NoticesApart c d := by subst h; rfl

theorem NoticesApart.assembling {c d : Console} (h : NoticesApart c d) : d.assembling = c.assembling :=
  (congrArg Console.assembling h :)

theorem NoticesApart.overrun {c d : Console} (h : NoticesApart c d) : d.overrun = c.overrun :=
  (congrArg Console.overrun h :)

theorem State.raise_noticesApart (s : State) (n : Notice) : NoticesApart s.console (s.raise n).console :=
  offerNotice_rest _ n _

/-- A fold over slots keeps the console port when each of its steps does. -/
theorem foldl_console {α β : Type} {f : State × β → α → State × β}
    (hf : ∀ acc a, (f acc a).1.console = acc.1.console) (l : List α) (acc : State × β) :
    (l.foldl f acc).1.console = acc.1.console := by
  induction l generalizing acc with
  | nil => rfl
  | cons a l ih => rw [List.foldl_cons, ih, hf]

theorem clearStep_console (sc : State × Nat) (n : SlotNo) : (clearStep sc n).1.console = sc.1.console := by
  unfold clearStep
  split <;> simp

theorem walkStep_console (sc : State × Nat) (n : SlotNo) : (walkStep sc n).1.console = sc.1.console := by
  unfold walkStep
  split
  · split <;> simp
  · rfl

@[simp] theorem State.clearance_console (s : State) : s.clearance.1.console = s.console :=
  foldl_console clearStep_console s.hold (s, 0)

@[simp] theorem State.walk_console (s : State) : s.walk.1.console = s.console :=
  foldl_console walkStep_console s.hold (s, 0)

@[simp] theorem State.releaseAll_console (s : State) : s.releaseAll.1.console = s.console := by
  simp [State.releaseAll]

theorem farResetStep_console (acc : State × Nat × Nat) (n : SlotNo) :
    (farResetStep acc n).1.console = acc.1.console := by
  unfold farResetStep
  split
  · rfl
  · split <;> simp

theorem farResetM_console (acc : State × Nat × Nat) : (farResetM acc).1.console = acc.1.console := by
  unfold farResetM
  split
  · rfl
  · split <;> simp

@[simp] theorem State.farReset_console (s : State) : s.farReset.1.console = s.console := by
  unfold State.farReset
  rw [farResetM_console, foldl_console farResetStep_console]

@[simp] theorem State.programEntry_console (s : State) (n : EntryNo) (e : WatchEntry) :
    (s.programEntry n e).1.console = s.console := rfl

@[simp] theorem State.startAccess_console (s : State) (h : InHand) (c : AccClass) :
    (s.startAccess h c).1.console = s.console := by
  unfold State.startAccess
  split <;> simp

@[simp] theorem departureAnswer_console (n : SlotNo) (sc : State × Nat) :
    (departureAnswer n sc).1.console = sc.1.console := rfl

/-! ### Each verb at the console port -/

theorem cmdFr_console (o : Operands) (s : State) : (cmdFr o s).1.console = s.console := by
  unfold cmdFr; split <;> simp

theorem cmdTs_console (o : Operands) (s : State) : (cmdTs o s).1.console = s.console := by
  unfold cmdTs; split <;> rfl

theorem cmdWs_console (o : Operands) (s : State) : (cmdWs o s).1.console = s.console := by
  unfold cmdWs; split <;> [rfl; (split <;> simp)]

theorem cmdWr_console (o : Operands) (s : State) : (cmdWr o s).1.console = s.console := by
  unfold cmdWr; split <;> [rfl; (dsimp only; split <;> simp)]

theorem cmdWa_console (o : Operands) (s : State) : (cmdWa o s).1.console = s.console := by
  unfold cmdWa; split <;> [rfl; (dsimp only; split <;> simp)]

theorem cmdWd_console (o : Operands) (s : State) : (cmdWd o s).1.console = s.console := by
  unfold cmdWd; split <;> [rfl; (split <;> simp)]

theorem cmdWx_console (o : Operands) (s : State) : (cmdWx o s).1.console = s.console := by
  unfold cmdWx; split <;> simp

theorem cmdWq_console (o : Operands) (s : State) : (cmdWq o s).1.console = s.console := by
  unfold cmdWq; split <;> rfl

theorem cmdHl_console (o : Operands) (s : State) : (cmdHl o s).1.console = s.console := by
  unfold cmdHl; split <;> rfl

theorem cmdHr_console (o : Operands) (s : State) : (cmdHr o s).1.console = s.console := by
  unfold cmdHr
  split
  · rfl
  · split_ifs <;> simp
  · split <;> simp

theorem cmdHa_console (o : Operands) (s : State) : (cmdHa o s).1.console = s.console := by
  unfold cmdHa
  split
  · rfl
  · split <;> [rfl; (split <;> simp)]

theorem cmdHf_console (o : Operands) (s : State) : (cmdHf o s).1.console = s.console := by
  unfold cmdHf; split <;> [rfl; (split <;> simp)]

theorem cmdRa_console (o : Operands) (s : State) : (cmdRa o s).1.console = s.console := by
  unfold cmdRa; split <;> simp

theorem cmdSs_console (o : Operands) (s : State) : (cmdSs o s).1.console = s.console := by
  unfold cmdSs; split <;> simp

theorem cmdSx_console (o : Operands) (s : State) : (cmdSx o s).1.console = s.console := by
  unfold cmdSx; split <;> simp

theorem cmdSq_console (o : Operands) (s : State) : (cmdSq o s).1.console = s.console := by
  unfold cmdSq; split <;> rfl

theorem cmdLr_console (o : Operands) (s : State) : (cmdLr o s).1.console = s.console := by
  unfold cmdLr; split <;> [rfl; (split <;> rfl)]

theorem cmdLn_console (o : Operands) (s : State) : (cmdLn o s).1.console = s.console := by
  unfold cmdLn
  split
  · rfl
  · split <;> [rfl; (split <;> rfl)]

theorem cmdLc_console (o : Operands) (s : State) : (cmdLc o s).1.console = s.console := by
  unfold cmdLc; split <;> rfl

theorem cmdLm_console (o : Operands) (s : State) : (cmdLm o s).1.console = s.console := by
  unfold cmdLm; split <;> rfl

theorem cmdAk_console (o : Operands) (s : State) : (cmdAk o s).1.console = s.console := by
  unfold cmdAk
  split
  · rfl
  · split <;> rfl
  · rfl

theorem cmdGo_console (o : Operands) (s : State) : (cmdGo o s).1.console = s.console := by
  unfold cmdGo; split <;> [rfl; (split <;> rfl)]

theorem cmdBy_console (o : Operands) (s : State) : (cmdBy o s).1.console = s.console := by
  unfold cmdBy; split <;> [rfl; (split <;> rfl)]

/-- `FZ` raises `^FZ` where it enters FROZEN (R136). -/
theorem cmdFz_noticesApart (o : Operands) (s : State) : NoticesApart s.console (cmdFz o s).1.console := by
  unfold cmdFz
  split
  · rfl
  · cases s.ctrl.op with
    | bypass => exact State.raise_noticesApart _ .fz
    | watch => exact State.raise_noticesApart _ .fz
    | frozen => rfl
    | gated => rfl

/-- `TH` raises `^TH` where it leaves FROZEN (R137). -/
theorem cmdTh_noticesApart (o : Operands) (s : State) : NoticesApart s.console (cmdTh o s).1.console := by
  unfold cmdTh
  split
  · rfl
  · split
    case h_1 => exact State.raise_noticesApart _ .th
    all_goals rfl

theorem cmdCl_console (o : Operands) (s : State) : (cmdCl o s).1.console = s.console := by
  unfold cmdCl; split <;> simp

theorem cmdSt_console (o : Operands) (s : State) : (cmdSt o s).1.console = s.console := by
  unfold cmdSt; split <;> rfl

theorem cmdSp_console (o : Operands) (s : State) : (cmdSp o s).1.console = s.console := by
  unfold cmdSp; split <;> rfl

theorem cmdMa_console (o : Operands) (s : State) : (cmdMa o s).1.console = s.console := by
  unfold cmdMa; split <;> rfl

theorem cmdMr_console (src : Source) (o : Operands) (s : State) : (cmdMr src o s).1.console = s.console := by
  unfold cmdMr; split <;> simp

theorem cmdMw_console (src : Source) (o : Operands) (s : State) : (cmdMw src o s).1.console = s.console := by
  unfold cmdMw; split <;> simp

/-- The rule of a verb raises notices and does nothing else at the console port: a line's answer is not the rule's (R167). -/
theorem verbRule_noticesApart (v : Verb) (src : Source) (o : Operands) (s : State) :
    NoticesApart s.console (verbRule v src o s).1.console := by
  cases v with
  | fz => exact cmdFz_noticesApart o s
  | th => exact cmdTh_noticesApart o s
  | fr => exact .of_eq (cmdFr_console o s)
  | ts => exact .of_eq (cmdTs_console o s)
  | ws => exact .of_eq (cmdWs_console o s)
  | wr => exact .of_eq (cmdWr_console o s)
  | wa => exact .of_eq (cmdWa_console o s)
  | wd => exact .of_eq (cmdWd_console o s)
  | wx => exact .of_eq (cmdWx_console o s)
  | wq => exact .of_eq (cmdWq_console o s)
  | hl => exact .of_eq (cmdHl_console o s)
  | hr => exact .of_eq (cmdHr_console o s)
  | ha => exact .of_eq (cmdHa_console o s)
  | hf => exact .of_eq (cmdHf_console o s)
  | ra => exact .of_eq (cmdRa_console o s)
  | ss => exact .of_eq (cmdSs_console o s)
  | sx => exact .of_eq (cmdSx_console o s)
  | sq => exact .of_eq (cmdSq_console o s)
  | lr => exact .of_eq (cmdLr_console o s)
  | ln => exact .of_eq (cmdLn_console o s)
  | lc => exact .of_eq (cmdLc_console o s)
  | lm => exact .of_eq (cmdLm_console o s)
  | ak => exact .of_eq (cmdAk_console o s)
  | go => exact .of_eq (cmdGo_console o s)
  | byp => exact .of_eq (cmdBy_console o s)
  | cl => exact .of_eq (cmdCl_console o s)
  | st => exact .of_eq (cmdSt_console o s)
  | sp => exact .of_eq (cmdSp_console o s)
  | ma => exact .of_eq (cmdMa_console o s)
  | mr => exact .of_eq (cmdMr_console src o s)
  | mw => exact .of_eq (cmdMw_console src o s)

theorem runVerb_noticesApart (v : Verb) (src : Source) (ops : List Token) (s : State) :
    NoticesApart s.console (runVerb v src ops s).1.console := by
  unfold runVerb
  split
  · rfl
  · exact verbRule_noticesApart v src _ s

/-- Tests 3 to 7 of R163 raise notices and do nothing else at the console port. -/
theorem interpret_noticesApart (src : Source) (m : Option Mark) (text : Text) (s : State) :
    NoticesApart s.console (interpret src m text s).1.console := by
  unfold interpret
  split
  · rfl
  · split
    · rfl
    · split
      · rfl
      · exact runVerb_noticesApart _ src _ s

/-! ### The service of a completed line -/

/-- In `t` the line `l` is IN SERVICE, and the line being assembled and the overrun flag are those of `s`. -/
structure InServiceAfter (s t : State) (l : Line) : Prop where
  assembling : t.console.assembling = s.console.assembling
  overrun    : t.console.overrun = s.console.overrun
  serves     : ∃ w, t.console.inService = some w ∧ w.line = l

theorem State.reply_inServiceAfter (s : State) (l : Line) (ls : List Text) (b : Bool) :
    InServiceAfter s (s.reply l ls b) l := ⟨rfl, rfl, _, rfl, rfl⟩

/-- Each kind of answer leaves its line IN SERVICE (R167). -/
theorem answerLine_inServiceAfter {s : State} {r : State × Answer} (h : NoticesApart s.console r.1.console) (l : Line) :
    InServiceAfter s (answerLine l r) l := by
  unfold answerLine
  split <;> exact ⟨h.assembling, h.overrun, _, rfl, rfl⟩

/-- A line that enters service stays IN SERVICE to the end of its event, whichever test of R163 answers it. -/
theorem State.serveLine_inServiceAfter (s : State) (l : Line) : InServiceAfter s (s.serveLine l) l := by
  unfold State.serveLine State.serveUnless
  split
  · exact s.reply_inServiceAfter l _ false
  · split
    · exact s.reply_inServiceAfter l _ false
    · exact answerLine_inServiceAfter (interpret_noticesApart .console l.mark l.text s) l

/-- The choice of a line to send changes what is sent and what waits to be sent (R173). -/
theorem chooseLine_rest (c : Console) :
    chooseLine c = { c with
      tx := (chooseLine c).tx, response := (chooseLine c).response
      notices := (chooseLine c).notices, noticesLost := (chooseLine c).noticesLost } := by
  unfold chooseLine
  split
  · rfl
  · split <;> [rfl; (split <;> rfl)]
  · split <;> [rfl; (split <;> rfl)]

theorem settle_rest (c : Console) :
    settle c = { c with
      tx := (settle c).tx, response := (settle c).response
      notices := (settle c).notices, noticesLost := (settle c).noticesLost } := by
  unfold settle
  split
  · exact chooseLine_rest c
  · rfl

theorem settle_assembling (c : Console) : (settle c).assembling = c.assembling :=
  (congrArg Console.assembling (settle_rest c) :)

theorem settle_overrun (c : Console) : (settle c).overrun = c.overrun :=
  (congrArg Console.overrun (settle_rest c) :)

theorem settle_inService (c : Console) : (settle c).inService = c.inService :=
  (congrArg Console.inService (settle_rest c) :)

/-! ### What a byte does to a line (R159) -/

theorem printable_iff (b : Byte) : printable b = true ↔ 0x20 ≤ b.toNat ∧ b.toNat ≤ 0x7E := by
  simp [printable]

theorem Assembly.take_room {a : Assembly} {b : Byte} (hb : printable b = true)
    (hroom : a.text.length < 72 ∧ a.mark ≠ some .ll) :
    a.take b = { a with text := a.text ++ [Char.ofNat b.toNat] } := by
  unfold Assembly.take
  rw [if_pos hb]
  exact if_pos hroom

theorem Assembly.take_full {a : Assembly} {b : Byte} (hb : printable b = true)
    (hfull : ¬ (a.text.length < 72 ∧ a.mark ≠ some .ll)) : a.take b = a.withMark .ll := by
  unfold Assembly.take
  rw [if_pos hb]
  exact if_neg hfull

theorem Assembly.take_backspace (a : Assembly) : a.take 0x08 = { a with text := a.text.dropLast } := rfl

theorem Assembly.take_other {a : Assembly} {b : Byte} (hb : ¬ printable b = true) (hbs : b ≠ 0x08) :
    a.take b = a.withMark .ch := by
  unfold Assembly.take
  rw [if_neg hb, if_neg hbs]

/-! ### A character of a line being assembled -/

theorem exec_character {s : State} (h : s.running) (f : RxFrame) :
    exec (.character f) s = .next (s.takeCharacter (s.received f)).kick := by
  have hpor : s.ctrl.por = false := h
  show s.event (fun s => s.takeCharacter (s.received f)) = _
  simp [State.event, hpor]

/-- Line assembly ignores LF (R158). -/
theorem State.takeCharacter_lf (s : State) : s.takeCharacter (some 0x0A) = s := if_pos rfl

/-- Every character but LF goes to the line being assembled (R158). -/
theorem State.takeCharacter_assembling {s : State} {a : Assembly} (ha : s.console.assembling = some a)
    {ch : Option Byte} (hlf : ch ≠ some 0x0A) : s.takeCharacter ch = s.assemble a ch := by
  unfold State.takeCharacter
  rw [if_neg hlf, ha]

/-- A byte other than CR and ESC changes the text or the mark of the line, and nothing else (R159). -/
theorem State.assemble_take (s : State) (a : Assembly) {b : Byte} (hcr : b ≠ 0x0D) (hesc : b ≠ 0x1B) :
    s.assemble a (some b) = { s with console := { s.console with assembling := some (a.take b) } } :=
  (if_neg hcr).trans (if_neg hesc)

/-- A frame that is good hands its byte to assembly (R154). -/
theorem State.received_good {s : State} {f : RxFrame}
    (h : badFrame (f.begunWith.getD s.console.parityInUse) f = false) : s.received f = some f.data :=
  if_neg (by simp [h])

/-- A bad frame marks the line FR (R158, R160). -/
theorem exec_character_bad {s : State} {f : RxFrame} {a : Assembly} (hrun : s.running)
    (ha : s.console.assembling = some a) (hbad : badFrame (f.begunWith.getD s.console.parityInUse) f = true) :
    exec (.character f) s = .next { s with console := settle { s.console with
      assembling := some (a.withMark .fr) } } := by
  have hrec : s.received f = none := if_pos hbad
  rw [exec_character hrun, hrec, State.takeCharacter_assembling ha (by simp), State.kick_eq]
  rfl

section
variable {s : State} {f : RxFrame} {a : Assembly} (hrun : s.running)
  (hgood : badFrame (f.begunWith.getD s.console.parityInUse) f = false)
include hrun hgood

/-- LF changes nothing in the line (R158). -/
theorem exec_character_lf (hlf : f.data = 0x0A) :
    exec (.character f) s = .next { s with console := settle s.console } := by
  rw [exec_character hrun, State.received_good hgood, hlf, State.takeCharacter_lf, State.kick_eq]

variable (ha : s.console.assembling = some a)
include ha

/-- A good frame other than LF is taken into the line by its byte (R158). -/
theorem exec_character_good (hlf : f.data ≠ 0x0A) :
    exec (.character f) s = .next (s.assemble a (some f.data)).kick := by
  rw [exec_character hrun, State.received_good hgood,
    State.takeCharacter_assembling ha (fun h => hlf (Option.some.inj h))]

/-- ESC discards the line (R159). -/
theorem exec_character_esc (hesc : f.data = 0x1B) :
    exec (.character f) s = .next { s with console := settle { s.console with assembling := none } } := by
  rw [exec_character_good hrun hgood ha (by simp [hesc]), hesc, State.kick_eq]
  rfl

/-- Every byte but LF, CR and ESC leaves what `Assembly.take` makes of the line (R159). -/
theorem exec_character_take (hlf : f.data ≠ 0x0A) (hcr : f.data ≠ 0x0D) (hesc : f.data ≠ 0x1B) :
    exec (.character f) s = .next { s with console := settle { s.console with
      assembling := some (a.take f.data) } } := by
  rw [exec_character_good hrun hgood ha hlf, State.assemble_take s a hcr hesc, State.kick_eq]

/-- CR completes the line (R159, R161). -/
theorem exec_character_cr (hcr : f.data = 0x0D) :
    exec (.character f) s = .next (s.completeLine a.text a.mark).kick := by
  rw [exec_character_good hrun hgood ha (by simp [hcr]), hcr]
  rfl

end

/-! ### CR -/

/-- With a line IN SERVICE the completed line waits, with the overrun flag (R161, R162). -/
theorem State.completeLine_waits {s : State} {w : Service} (hw : s.console.inService = some w) (text : Text)
    (m : Option Mark) :
    s.completeLine text m = { s with console := { s.console with
      assembling := none
      overrun := false
      waiting := some { text := text, mark := m, overrun := s.console.overrun } } } := by
  simp [State.completeLine, hw]

/-- With no line IN SERVICE the completed line enters service, with the overrun flag (R161, R162). -/
theorem State.completeLine_serves {s : State} (hw : s.console.inService = none) (text : Text) (m : Option Mark) :
    s.completeLine text m =
      ({ s with console := { s.console with assembling := none, overrun := false } } : State).serveLine
        { text := text, mark := m, overrun := s.console.overrun } := by
  simp [State.completeLine, hw]

/-- A completed line leaves no line being assembled and the overrun flag clear, and is IN SERVICE when no other line is
(R161, R162). -/
theorem State.completeLine_console (s : State) (text : Text) (m : Option Mark) :
    (s.completeLine text m).console.assembling = none ∧ (s.completeLine text m).console.overrun = false ∧
      (s.console.inService = none → ∃ w, (s.completeLine text m).console.inService = some w ∧
        w.line = { text := text, mark := m, overrun := s.console.overrun }) := by
  cases hserv : s.console.inService with
  | none =>
    rw [State.completeLine_serves hserv]
    obtain ⟨hassembling, hoverrun, hserves⟩ := State.serveLine_inServiceAfter
      { s with console := { s.console with assembling := none, overrun := false } }
      { text := text, mark := m, overrun := s.console.overrun }
    exact ⟨hassembling, hoverrun, fun _ => hserves⟩
  | some w =>
    rw [State.completeLine_waits hserv]
    exact ⟨rfl, rfl, fun h => absurd h (by simp)⟩

/-- Settles O45: a bad frame by `exec_character_bad`, CR by what a completed line leaves (`State.completeLine_console`),
and a byte that stays in the line by what `Assembly.take` makes of it. -/
theorem characterInLine : Obligations.CharacterInLine := by
  unfold Obligations.CharacterInLine
  intro s f a hrun ha
  refine ⟨exec_character_bad hrun ha, fun hgood => ⟨fun hlow hhigh => ?printable, fun hbs => ?backspace,
    exec_character_esc hrun hgood ha, exec_character_lf hrun hgood, fun hrange hbs hlf hcr hesc => ?other,
    fun hcr => ?cr⟩⟩
  case printable =>
    have hprint : printable f.data = true := (printable_iff _).2 ⟨hlow, hhigh⟩
    have hne : ∀ b : Byte, b.toNat < 0x20 → f.data ≠ b := fun b hb h => by
      rw [h] at hlow
      omega
    rw [exec_character_take hrun hgood ha (hne 0x0A (by decide)) (hne 0x0D (by decide)) (hne 0x1B (by decide))]
    refine ⟨fun hroom => ?_, fun hfull => ?_⟩
    · rw [Assembly.take_room hprint hroom]
    · rw [Assembly.take_full hprint hfull]
      rfl
  case backspace =>
    rw [exec_character_take hrun hgood ha (by simp [hbs]) (by simp [hbs]) (by simp [hbs]), hbs, Assembly.take_backspace]
  case other =>
    have hprint : ¬ printable f.data = true := by
      rw [printable_iff]
      omega
    rw [exec_character_take hrun hgood ha hlf hcr hesc, Assembly.take_other hprint hbs]
    rfl
  case cr =>
    obtain ⟨hassembling, hoverrun, hserves⟩ := s.completeLine_console a.text a.mark
    refine ⟨_, exec_character_cr hrun hgood ha hcr, ?_⟩
    rw [State.kick_eq]
    refine ⟨(settle_assembling _).trans hassembling, (settle_overrun _).trans hoverrun, fun w hw => ?_, fun hfree => ?_⟩
    · rw [State.completeLine_waits hw]
    · rw [settle_inService]
      exact hserves hfree

end Sys2Proof.Machine
end

section
/-! PROOFS. What one step can do outside the console port: a predicate of the transit table, its queues, the tables and the
log is kept by every step when the operations of the model keep it. -/

namespace Sys2Proof.Machine

/-! ### The rows of the opcode table -/

/-- A row is one of the nineteen events or the row of a verb. -/
theorem Instr.rowCases {motive : Instr → Prop} (acceptance : ∀ req, motive (.acceptance req))
    (delivery : motive .delivery) (issue : motive .issue) (farResponse : ∀ resp, motive (.farResponse resp))
    (tick : motive .tick) (farTimeout : ∀ n, motive (.farTimeout n)) (slotMFarTimeout : motive .slotMFarTimeout)
    (expiry : ∀ n, motive (.expiry n)) (farResetNegation : motive .farResetNegation)
    (nearResetAssertion : motive .nearResetAssertion) (nearResetNegation : motive .nearResetNegation)
    (porAssertion : motive .porAssertion) (porNegation : ∀ pins, motive (.porNegation pins))
    (triggerRisingEdge : motive .triggerRisingEdge) (triggerFallingEdge : motive .triggerFallingEdge)
    (character : ∀ frame, motive (.character frame)) (breakEvent : motive .breakEvent) (lineSent : motive .lineSent)
    (byteEvent : ∀ byte, motive (.byteEvent byte)) (verb : ∀ v src ops, motive (verbRow v src ops)) (i : Instr) :
    motive i := by
  cases i with
  | acceptance req => exact acceptance req
  | delivery => exact delivery
  | issue => exact issue
  | farResponse r => exact farResponse r
  | tick => exact tick
  | farTimeout n => exact farTimeout n
  | slotMFarTimeout => exact slotMFarTimeout
  | expiry n => exact expiry n
  | farResetNegation => exact farResetNegation
  | nearResetAssertion => exact nearResetAssertion
  | nearResetNegation => exact nearResetNegation
  | porAssertion => exact porAssertion
  | porNegation pins => exact porNegation pins
  | triggerRisingEdge => exact triggerRisingEdge
  | triggerFallingEdge => exact triggerFallingEdge
  | character f => exact character f
  | breakEvent => exact breakEvent
  | lineSent => exact lineSent
  | byteEvent b => exact byteEvent b
  | fr src ops => exact verb .fr src ops
  | ts src ops => exact verb .ts src ops
  | ws src ops => exact verb .ws src ops
  | wr src ops => exact verb .wr src ops
  | wa src ops => exact verb .wa src ops
  | wd src ops => exact verb .wd src ops
  | wx src ops => exact verb .wx src ops
  | wq src ops => exact verb .wq src ops
  | hl src ops => exact verb .hl src ops
  | hr src ops => exact verb .hr src ops
  | ha src ops => exact verb .ha src ops
  | hf src ops => exact verb .hf src ops
  | ra src ops => exact verb .ra src ops
  | ss src ops => exact verb .ss src ops
  | sx src ops => exact verb .sx src ops
  | sq src ops => exact verb .sq src ops
  | lr src ops => exact verb .lr src ops
  | ln src ops => exact verb .ln src ops
  | lc src ops => exact verb .lc src ops
  | lm src ops => exact verb .lm src ops
  | ak src ops => exact verb .ak src ops
  | go src ops => exact verb .go src ops
  | byp src ops => exact verb .byp src ops
  | fz src ops => exact verb .fz src ops
  | th src ops => exact verb .th src ops
  | cl src ops => exact verb .cl src ops
  | st src ops => exact verb .st src ops
  | sp src ops => exact verb .sp src ops
  | ma src ops => exact verb .ma src ops
  | mr src ops => exact verb .mr src ops
  | mw src ops => exact verb .mw src ops

/-! ### States that agree -/

/-- The traffic slots and the three queues of `t` are those of `s`. -/
structure SameTransit (s t : State) : Prop where
  slots     : t.transit.slots = s.transit.slots
  responses : t.near.responses = s.near.responses
  forward   : t.far.forward = s.far.forward
  hold      : t.hold = s.hold

/-- The watch table, the substitution table and the capture log of `t` are those of `s`. -/
structure SameTables (s t : State) : Prop where
  watch : t.watch = s.watch
  subst : t.subst = s.subst
  log   : t.log = s.log

/-- The transit table, the queues, the tables and the log of `t` are those of `s`. -/
structure SameCore (s t : State) : Prop where
  transit : SameTransit s t
  tables  : SameTables s t

theorem SameTransit.refl (s : State) : SameTransit s s := ⟨rfl, rfl, rfl, rfl⟩

theorem SameTransit.slot {s t : State} (h : SameTransit s t) : t.slot = s.slot := by
  funext n
  simp only [State.slot, h.slots]

theorem SameCore.refl (s : State) : SameCore s s := ⟨SameTransit.refl s, rfl, rfl, rfl⟩

theorem SameCore.trans {s t u : State} (h : SameCore s t) (k : SameCore t u) : SameCore s u := by
  obtain ⟨⟨hs, hr, hf, hh⟩, hw, hu, hl⟩ := h
  obtain ⟨⟨ks, kr, kf, kh⟩, kw, ku, kl⟩ := k
  exact ⟨⟨ks.trans hs, kr.trans hr, kf.trans hf, kh.trans hh⟩, kw.trans hw, ku.trans hu, kl.trans hl⟩

/-- A change of the console port alone. -/
theorem SameCore.console (s : State) (c : Console) : SameCore s { s with console := c } :=
  ⟨⟨rfl, rfl, rfl, rfl⟩, rfl, rfl, rfl⟩

theorem SameCore.raise (s : State) (n : Notice) : SameCore s (s.raise n) := SameCore.console s _

theorem SameCore.kick (s : State) : SameCore s s.kick := by
  rw [State.kick_eq]
  exact SameCore.console s _

/-! ### The verbs that leave the core as it is -/

/-- The rule of a verb that reads, or that changes the state controller, the alert set or the memory port only. -/
def leavesCore : Verb → Bool
  | .ts | .wq | .hl | .sq | .lr | .ak | .go | .byp | .fz | .th | .st | .sp | .ma | .mr | .mw => true
  | .fr | .ws | .wr | .wa | .wd | .wx | .hr | .ha | .hf | .ra | .ss | .sx | .ln | .lc | .lm | .cl => false

theorem cmdAk_sameCore (o : Operands) (s : State) : SameCore s (cmdAk o s).1 := by
  unfold cmdAk
  split
  · exact .refl s
  · split <;> exact ⟨⟨rfl, rfl, rfl, rfl⟩, rfl, rfl, rfl⟩
  · exact ⟨⟨rfl, rfl, rfl, rfl⟩, rfl, rfl, rfl⟩

theorem cmdGo_sameCore (o : Operands) (s : State) : SameCore s (cmdGo o s).1 := by
  unfold cmdGo
  split
  · exact .refl s
  · cases s.ctrl.op <;> exact ⟨⟨rfl, rfl, rfl, rfl⟩, rfl, rfl, rfl⟩

theorem cmdBy_sameCore (o : Operands) (s : State) : SameCore s (cmdBy o s).1 := by
  unfold cmdBy
  split
  · exact .refl s
  · cases s.ctrl.op <;> exact ⟨⟨rfl, rfl, rfl, rfl⟩, rfl, rfl, rfl⟩

theorem cmdFz_sameCore (o : Operands) (s : State) : SameCore s (cmdFz o s).1 := by
  unfold cmdFz
  split
  · exact .refl s
  · cases s.ctrl.op <;> exact ⟨⟨rfl, rfl, rfl, rfl⟩, rfl, rfl, rfl⟩

theorem cmdTh_sameCore (o : Operands) (s : State) : SameCore s (cmdTh o s).1 := by
  unfold cmdTh
  split
  · exact .refl s
  · split <;> exact ⟨⟨rfl, rfl, rfl, rfl⟩, rfl, rfl, rfl⟩

theorem State.startAccess_sameCore (s : State) (h : InHand) (c : AccClass) : SameCore s (s.startAccess h c).1 := by
  unfold State.startAccess
  split <;> exact ⟨⟨rfl, rfl, rfl, rfl⟩, rfl, rfl, rfl⟩

/-- The verbs that read, and those of the state controller, the alert set and the memory port, leave the core as it is. -/
theorem verbRule_sameCore {v : Verb} (hv : leavesCore v = true) (src : Source) (o : Operands) (s : State) :
    SameCore s (verbRule v src o s).1 := by
  cases v with
  | ts => simp only [verbRule, cmdTs]; split <;> exact .refl s
  | wq => simp only [verbRule, cmdWq]; split <;> exact .refl s
  | hl => simp only [verbRule, cmdHl]; split <;> exact .refl s
  | sq => simp only [verbRule, cmdSq]; split <;> exact .refl s
  | lr => simp only [verbRule, cmdLr]; split <;> [exact .refl s; (split <;> exact .refl s)]
  | st => simp only [verbRule, cmdSt]; split <;> exact .refl s
  | ak => exact cmdAk_sameCore o s
  | go => exact cmdGo_sameCore o s
  | byp => exact cmdBy_sameCore o s
  | fz => exact cmdFz_sameCore o s
  | th => exact cmdTh_sameCore o s
  | sp => simp only [verbRule, cmdSp]; split <;> exact ⟨⟨rfl, rfl, rfl, rfl⟩, rfl, rfl, rfl⟩
  | ma => simp only [verbRule, cmdMa]; split <;> exact ⟨⟨rfl, rfl, rfl, rfl⟩, rfl, rfl, rfl⟩
  | mr => simp only [verbRule, cmdMr]; split <;> [exact .refl s; exact s.startAccess_sameCore _ _]
  | mw => simp only [verbRule, cmdMw]; split <;> [exact .refl s; exact s.startAccess_sameCore _ _]
  | fr | ws | wr | wa | wd | wx | hr | ha | hf | ra | ss | sx | ln | lc | lm | cl => cases hv

/-! ### A predicate that every step keeps -/

/-- `P` speaks of the core alone, and the events and the verbs that change the core keep it. -/
structure Kept (P : State → Prop) : Prop where
  core       : ∀ {s t}, P s → SameCore s t → P t
  powerOn    : ∀ {s}, P s → P s.powerOn
  accept     : ∀ {s n} (req : NearRequest), P s → s.slot n = none → s.live req.tag = false → P (s.accept n req)
  deliver    : ∀ {s}, P s → P s.deliver
  issue      : ∀ {s}, P s → P s.issueForward
  far        : ∀ {s} (n : SlotNo) (r : FarResponse), P s → P (s.farToSlot n r)
  tick       : ∀ {s}, P s → P s.tickAll
  timeOut    : ∀ {s n}, P s → s.farExpiryDue n = true → P (s.timeOut n)
  expire     : ∀ {s n}, P s → s.expiryDue n = true → P (s.expire n)
  nearReset  : ∀ {s}, P s → P s.assertNearReset
  trigger    : ∀ {s}, P s → P s.triggerEntries
  verb       : ∀ {s} (v : Verb) (src : Source) (o : Operands), leavesCore v = false → P s → P (verbRule v src o s).1
  wipe       : ∀ {s}, P s → P s.entriesOff.recordsInvalid

namespace Kept

variable {P : State → Prop} (h : Kept P)
include h

/-! #### Lines of verbs -/

theorem console {s : State} (c : Console) (hs : P s) : P { s with console := c } := h.core hs (.console s c)

theorem verbRule {s : State} (v : Verb) (src : Source) (o : Operands) (hs : P s) : P (verbRule v src o s).1 := by
  cases hv : leavesCore v with
  | true => exact h.core hs (verbRule_sameCore hv src o s)
  | false => exact h.verb v src o hv hs

theorem runVerb {s : State} (v : Verb) (src : Source) (ops : List Token) (hs : P s) : P (runVerb v src ops s).1 := by
  unfold Machine.runVerb
  split
  · exact hs
  · exact h.verbRule v src _ hs

theorem interpret {s : State} (src : Source) (m : Option Mark) (text : Text) (hs : P s) :
    P (interpret src m text s).1 := by
  unfold Machine.interpret
  split
  · exact hs
  · split
    · exact hs
    · split
      · exact hs
      · exact h.runVerb _ src _ hs

theorem answerLine {r : State × Answer} (l : Line) (hr : P r.1) : P (answerLine l r) := by
  unfold Machine.answerLine
  split <;> exact h.console _ hr

theorem serveUnless {s t : State} (l : Line) (hs : P s) (ht : P t) : P (s.serveUnless l t) := by
  unfold State.serveUnless
  split
  · exact h.console _ hs
  · split
    · exact h.console _ hs
    · exact ht

theorem serveLine {s : State} (l : Line) (hs : P s) : P (s.serveLine l) :=
  h.serveUnless l hs (h.answerLine l (h.interpret .console l.mark l.text hs))

theorem endService {s : State} (hs : P s) : P s.endService := by
  have h1 : P (if s.console.inService.any Service.settings then s.takeSettings else s) := by
    split
    · exact h.console _ hs
    · exact hs
  unfold State.endService
  dsimp only
  split
  · exact h.console _ h1
  · exact h.serveLine _ (h.console _ (h.console _ h1))

theorem completeLine {s : State} (text : Text) (m : Option Mark) (hs : P s) : P (s.completeLine text m) := by
  unfold State.completeLine
  dsimp only
  split
  · exact h.serveLine _ (h.console _ hs)
  · exact h.console _ (h.console _ hs)

theorem assemble {s : State} (a : Assembly) (ch : Option Byte) (hs : P s) : P (s.assemble a ch) := by
  unfold State.assemble
  split
  · exact h.console _ hs
  · split_ifs
    · exact h.completeLine _ _ hs
    · exact h.console _ hs
    · exact h.console _ hs

theorem takeCharacter {s : State} (ch : Option Byte) (hs : P s) : P (s.takeCharacter ch) := by
  unfold State.takeCharacter
  split
  · exact hs
  · split
    · exact h.assemble _ _ hs
    · split
      · split
        · exact hs
        · exact h.assemble _ _ hs
      · exact h.console _ hs

theorem consoleCommand {s : State} (v : Verb) (ops : List Token) (hs : P s) : P (s.consoleCommand v ops) := by
  unfold State.consoleCommand
  dsimp only
  split_ifs
  · exact h.serveUnless _ (h.console _ hs) (h.answerLine _ (h.runVerb _ _ _ (h.console _ hs)))
  · exact h.console _ hs
  · exact h.console _ hs

theorem endLine {s : State} (hs : P s) : P s.endLine := by
  rw [State.endLine_eq]
  exact h.console _ hs

theorem finishLine {s : State} (hs : P s) : P s.finishLine := by
  unfold State.finishLine
  split
  · exact hs
  · exact h.endLine hs
  · exact h.console _ (h.endLine hs)
  · dsimp only
    split
    · exact h.endLine hs
    · exact h.endService (h.endLine hs)
    · exact h.endService (h.endLine hs)

theorem suppress {s : State} (hs : P s) : P s.suppress := by
  unfold State.suppress
  split
  · exact hs
  · split
    · exact h.core hs ⟨⟨rfl, rfl, rfl, rfl⟩, rfl, rfl, rfl⟩
    · split_ifs
      · exact h.console _ hs
      · exact h.endService hs

/-! #### The preload port -/

theorem preloadFail {s : State} (c : Code) (hs : P s) : P (s.preloadFail c) :=
  h.core (h.wipe hs) ⟨⟨rfl, rfl, rfl, rfl⟩, rfl, rfl, rfl⟩

theorem preloadCounted {s : State} (hs : P s) : P s.preloadCounted := by
  unfold State.preloadCounted
  dsimp only
  split_ifs <;> exact h.core hs ⟨⟨rfl, rfl, rfl, rfl⟩, rfl, rfl, rfl⟩

theorem preloadSettings {s : State} (hs : P s) : P s.preloadSettings := by
  unfold State.preloadSettings
  split_ifs <;> exact h.console _ hs

theorem preloadDone {r : State × Answer} (hr : P r.1) : P (preloadDone r) := by
  unfold Machine.preloadDone
  split
  · exact h.preloadCounted hr
  · exact h.preloadCounted (h.preloadSettings hr)
  · exact h.preloadFail _ hr
  · exact hr

theorem checkLimit {s : State} (hs : P s) : P s.checkLimit := by
  unfold State.checkLimit
  split_ifs
  · exact h.preloadFail _ hs
  · exact hs

theorem preload {s : State} (p : Preload) (hs : P s) : P { s with preload := p } :=
  h.core hs ⟨⟨rfl, rfl, rfl, rfl⟩, rfl, rfl, rfl⟩

theorem takeStreamByte {s : State} (b : Byte) (hs : P s) : P (s.takeStreamByte b) := by
  unfold State.takeStreamByte
  dsimp only
  split_ifs
  · exact h.core hs ⟨⟨rfl, rfl, rfl, rfl⟩, rfl, rfl, rfl⟩
  · exact hs
  · exact h.preloadDone (h.interpret _ _ _ (h.preload _ hs))
  · exact h.preload _ hs
  · exact h.preload _ hs

theorem readByte {s : State} (b : Byte) (hs : P s) : P (s.readByte b) := by
  unfold State.readByte
  split_ifs
  · exact h.checkLimit (h.takeStreamByte b (h.preload _ hs))
  · exact hs

theorem preloadCommand {s : State} (v : Verb) (ops : List Token) (hs : P s) : P (s.preloadCommand v ops) := by
  unfold State.preloadCommand
  split_ifs
  · exact h.preloadDone (h.runVerb _ _ _ hs)
  · exact hs

theorem command {s : State} (v : Verb) (src : Source) (ops : List Token) (hs : P s) : P (s.command v src ops) := by
  cases src with
  | console => exact h.consoleCommand v ops hs
  | preload => exact h.preloadCommand v ops hs

theorem breakEvent {s : State} (hs : P s) : P s.breakConsole.breakPreload := by
  have hb : P s.breakConsole := h.core (h.suppress (h.console _ hs)) (.raise _ .bk)
  unfold State.breakPreload
  split_ifs
  · exact h.preloadFail _ hb
  · exact hb

/-! #### Memory accesses and the far link -/

theorem endAccess {s : State} (e : AccessEnd) (hs : P s) : P (s.endAccess e) := by
  have hm : ∀ m : Mem, P { s with mem := m } := fun m => h.core hs ⟨⟨rfl, rfl, rfl, rfl⟩, rfl, rfl, rfl⟩
  unfold State.endAccess
  split
  · exact hs
  · dsimp only
    split
    · unfold State.answerInService
      split
      · exact h.answerLine _ (hm _)
      · exact hm _
    · exact h.checkLimit (h.preloadDone (hm _))
    · split_ifs
      · exact h.endService (hm _)
      · exact hm _

theorem setSlotM {s : State} (m : Option MAccess) (hs : P s) : P (s.setSlotM m) :=
  h.core hs ⟨⟨rfl, rfl, rfl, rfl⟩, rfl, rfl, rfl⟩

theorem farToSlotM {s : State} (r : FarResponse) (hs : P s) : P (s.farToSlotM r) := by
  unfold State.farToSlotM
  split
  · exact h.core hs (.raise s _)
  · split
    · exact h.endAccess _ (h.setSlotM _ hs)
    · exact h.setSlotM _ hs
    · exact h.core hs (.raise s _)

theorem takeFarResponse {s : State} (r : FarResponse) (hs : P s) : P (s.takeFarResponse r) := by
  unfold State.takeFarResponse
  split
  · exact h.far _ r hs
  · split_ifs
    · exact h.farToSlotM r hs
    · exact h.core hs (.raise s _)

theorem keepOffer {s : State} (r : FarResponse) (hs : P s) : P (s.keepOffer r) :=
  h.core hs ⟨⟨rfl, rfl, rfl, rfl⟩, rfl, rfl, rfl⟩

theorem offerFarResponse {s : State} (r : FarResponse) (hs : P s) : P (s.offerFarResponse r) := by
  unfold State.offerFarResponse
  split_ifs
  · exact h.keepOffer r hs
  · exact h.takeFarResponse r hs

theorem takeWaiting {s : State} (hs : P s) : P s.takeWaiting := by
  have hfold : ∀ (l : List FarResponse) (u : State), P u → P (l.foldl State.offerFarResponse u) := by
    intro l
    induction l with
    | nil => exact fun u hu => hu
    | cons r l ih => exact fun u hu => ih _ (h.offerFarResponse r hu)
  exact hfold _ _ (h.core hs ⟨⟨rfl, rfl, rfl, rfl⟩, rfl, rfl, rfl⟩)

theorem endPulse {s : State} (hs : P s) : P s.endPulse := by
  unfold State.endPulse
  split_ifs
  · exact h.takeWaiting (h.core hs ⟨⟨rfl, rfl, rfl, rfl⟩, rfl, rfl, rfl⟩)
  · exact hs

theorem markWinner {s : State} (c : Contender) (hs : P s) : P (s.markWinner c) := by
  unfold State.markWinner
  split_ifs
  · exact h.core hs ⟨⟨rfl, rfl, rfl, rfl⟩, rfl, rfl, rfl⟩
  · exact hs

theorem issueSlotM {s : State} (hs : P s) : P s.issueSlotM := by
  unfold State.issueSlotM
  split
  · exact hs
  · exact h.core hs ⟨⟨rfl, rfl, rfl, rfl⟩, rfl, rfl, rfl⟩

theorem issueEvent {s : State} (hs : P s) : P s.issue := by
  unfold State.issue
  split_ifs
  · exact hs
  · split
    · exact hs
    · exact h.issue (h.markWinner _ hs)
    · exact h.issueSlotM (h.markWinner _ hs)

theorem timeOutM {s : State} (hs : P s) : P s.timeOutM := h.endAccess _ (h.setSlotM _ hs)

theorem offerRequest {s : State} (req : NearRequest) (hs : P s) : P (s.offerRequest req) := by
  unfold State.offerRequest
  split_ifs with hm
  · split
    · rename_i n hn
      have hfree : s.slot n = none := by
        have := List.find?_some hn
        simpa using this
      have hlive : s.live req.tag = false := by
        simp only [State.mayAccept, Bool.and_eq_true, Bool.not_eq_true'] at hm
        exact hm.2
      exact h.accept req hs hfree hlive
    · exact hs
  · exact hs

/-! #### Events and steps -/

theorem event {s t : State} {f : State → State} (ht : s.event f = .next t) (hs : P s) (hf : P s → P (f s)) : P t := by
  unfold State.event at ht
  cases ht
  split_ifs
  · exact hs
  · exact h.core (hf hs) (.kick _)

theorem exec {s t : State} (i : Instr) (hs : P s) (ht : exec i s = .next t) : P t := by
  induction i using Instr.rowCases with
  | acceptance req => exact h.event ht hs (h.offerRequest req)
  | delivery => exact h.event ht hs h.deliver
  | issue => exact h.event ht hs h.issueEvent
  | farResponse r =>
    change execFarResponse r s = .next t at ht
    unfold execFarResponse at ht
    split_ifs at ht
    · cases ht
      exact h.keepOffer r hs
    · exact h.event ht hs (h.offerFarResponse r)
  | tick => exact h.event ht hs h.tick
  | farTimeout n =>
    refine h.event ht hs (fun hs => ?_)
    split_ifs with hdue
    · exact h.timeOut hs hdue
    · exact hs
  | slotMFarTimeout =>
    refine h.event ht hs (fun hs => ?_)
    split_ifs
    · exact h.timeOutM hs
    · exact hs
  | expiry n =>
    refine h.event ht hs (fun hs => ?_)
    split_ifs with hdue
    · exact h.expire hs hdue
    · exact hs
  | farResetNegation => exact h.event ht hs h.endPulse
  | nearResetAssertion => exact h.event ht hs h.nearReset
  | nearResetNegation => exact h.event ht hs (fun hs => h.core hs ⟨⟨rfl, rfl, rfl, rfl⟩, rfl, rfl, rfl⟩)
  | porAssertion =>
    cases ht
    exact h.powerOn hs
  | porNegation pins =>
    cases ht
    split_ifs
    · have hup : P (s.powerUp pins) := h.core hs ⟨⟨rfl, rfl, rfl, rfl⟩, rfl, rfl, rfl⟩
      exact h.core (h.takeWaiting hup) (.kick _)
    · exact hs
  | triggerRisingEdge =>
    have ht : execTriggerRisingEdge s = .next t := ht
    refine h.event ht hs (fun hs => ?_)
    split_ifs
    · exact hs
    · exact h.trigger (h.core hs ⟨⟨rfl, rfl, rfl, rfl⟩, rfl, rfl, rfl⟩)
  | triggerFallingEdge =>
    have ht : execTriggerFallingEdge s = .next t := ht
    exact h.event ht hs (fun hs => h.core hs ⟨⟨rfl, rfl, rfl, rfl⟩, rfl, rfl, rfl⟩)
  | character f =>
    have ht : execCharacter f s = .next t := ht
    exact h.event ht hs (h.takeCharacter _)
  | breakEvent =>
    have ht : execBreak s = .next t := ht
    exact h.event ht hs h.breakEvent
  | lineSent => exact h.event ht hs h.finishLine
  | byteEvent b => exact h.event ht hs (h.readByte b)
  | verb v src ops =>
    rw [exec_verbRow] at ht
    exact h.event ht hs (h.command v src ops)

/-- Every step keeps `P`. -/
theorem step {s t : State} (hs : P s) (ht : step s = .next t) : P t := by
  unfold Machine.step at ht
  split at ht
  · cases ht
    exact hs
  · rename_i rest _
    have hrest : P { s with pending := rest } := h.core hs ⟨⟨rfl, rfl, rfl, rfl⟩, rfl, rfl, rfl⟩
    exact h.exec _ hrest ht

end Kept

end Sys2Proof.Machine
end

section
/-! PROOFS. What one step can do to a slot that is placed, held or let go: a predicate that the operations on one slot keep is
kept by acceptance, by expiry, by order clearance, by the walk of `RA`, and by the verbs for held accesses. -/

namespace Sys2Proof.Machine

theorem State.raiseAlerts_sameCore (s : State) (fired : List EntryNo) : SameCore s (s.raiseAlerts fired) := by
  have hjoin : ∀ (u : State) (e : EntryNo), SameCore u (u.joinAlert e) := fun u e =>
    ⟨⟨by simp, by simp, by simp, by simp⟩, by simp, by simp, by simp⟩
  have hfold : ∀ (l : List EntryNo) (u : State), SameCore u (l.foldl State.joinAlert u) := by
    intro l
    induction l with
    | nil => exact fun u => .refl u
    | cons e l ih => exact fun u => (hjoin u e).trans (ih _)
  exact hfold _ s

theorem dispOfAction_ne_align (act : Option Action) : dispOfAction act ≠ .align := by
  cases act with
  | none => decide
  | some a => cases a <;> decide

/-- Slot n is held, or carries a hold reason. -/
def InHold (s : State) (n : SlotNo) : Prop :=
  ∃ a, s.slot n = some a ∧ (a.state = .held ∨ a.holdReason.isSome = true)

theorem inHold_of_slotIs {s : State} {n : SlotNo} (h : s.slotIs n .held = true) : InHold s n := by
  obtain ⟨a, ha, hst⟩ := (Option.any_eq_true ..).1 h
  exact ⟨a, ha, .inl (beq_iff_eq.1 hst)⟩

theorem inHold_of_heldAs {s : State} {n : SlotNo} {r : HoldReason} (h : s.heldAs n r = true) : InHold s n := by
  obtain ⟨a, ha, hr⟩ := (Option.any_eq_true ..).1 h
  exact ⟨a, ha, .inr (by simp [beq_iff_eq.1 hr])⟩

theorem inHold_of_heldForDecision {s : State} {n : SlotNo} (h : s.heldForDecision n = true) : InHold s n := by
  rcases Bool.or_eq_true .. ▸ h with h | h <;> exact inHold_of_heldAs h

theorem inHold_of_expiryDue {s : State} {n : SlotNo} (h : s.expiryDue n = true) : InHold s n := by
  obtain ⟨a, ha, hdue⟩ := (Option.any_eq_true ..).1 h
  rw [Bool.and_eq_true, beq_iff_eq] at hdue
  exact ⟨a, ha, .inl hdue.1⟩

/-- `P` is kept by the operations that place a slot outside the hold queue. `L s n` is what holds of `s` while slot n is in no
queue and about to be placed. -/
structure CarryKept (P : State → Prop) (L : State → SlotNo → Prop) : Prop where
  same     : ∀ {s t}, P s → SameCore s t → P t
  slot     : ∀ {s n}, L s n → ∃ a, s.slot n = some a
  hit      : ∀ {s n a k}, L s n → s.slot n = some a → s.hitRecord a = some k →
               L (s.setRecord k (hitEffect (s.record k) a)) n
  answer   : ∀ {s n} (o : RecordOutcome) (r : Reason) (d : Option Data), L s n →
               P ((s.closeRecord n o (some r) d).answerSlot n r d)
  marked   : ∀ {s n} (m : PathMark), L s n → L (s.markRecord n m) n
  forward  : ∀ {s n}, L s n → P (s.forwardSlot n)

/-- `P` is also kept by the operations that let a held slot go or make it an ORDER slot. -/
structure HoldKept (P : State → Prop) (L : State → SlotNo → Prop) : Prop extends CarryKept P L where
  leave    : ∀ {s n}, P s → InHold s n → L (s.leaveHold n) n
  released : ∀ {s n}, L s n → L (s.modSlot n Access.released) n
  mark     : ∀ {s} (n : SlotNo) (m : PathMark), P s → P (s.markRecord n m)
  order    : ∀ {s n} (p : PendAction), P s → InHold s n → P (s.makeOrder n p)

/-- `P` is also kept by the operations that take a request into a slot and hold it. -/
structure AcceptKept (P : State → Prop) (L : State → SlotNo → Prop) : Prop extends CarryKept P L where
  judge      : ∀ {s} (j : Judged), P s → P (s.judgeEntries j)
  misaligned : ∀ {s n} (req : NearRequest), P s → s.slot n = none → s.live req.tag = false → P (s.acceptMisaligned n req)
  take       : ∀ {s n} (req : NearRequest) (d : Disposition) (k : Word) (fired : List EntryNo) (owner : Option EntryNo)
                 (act : Option Action), P s → s.slot n = none → s.live req.tag = false → d ≠ .align →
                 L ((s.takeSlot n (newAccess req k d owner)).recordJudged n req fired owner act) n
  holdOrder  : ∀ {s n} (p : PendAction), L s n → s.blockedAtPlacement n = true → P (s.holdForOrder n p)
  decision   : ∀ {s n} {r : HoldReason}, r ≠ .order → L s n → P (s.holdForDecision n r)

/-- `P` is kept by every operation that places a slot, holds it or lets it go. -/
structure SlotKept (P : State → Prop) (L : State → SlotNo → Prop) : Prop extends HoldKept P L, AcceptKept P L

namespace CarryKept

variable {P : State → Prop} {L : State → SlotNo → Prop} (h : CarryKept P L)
include h

theorem carryOut {s : State} {n : SlotNo} (hs : L s n) : P (s.carryOut n) := by
  obtain ⟨a, ha⟩ := h.slot hs
  unfold State.carryOut
  rw [ha]
  dsimp only
  split
  · rename_i hk
    exact h.answer _ _ _ (h.hit hs ha hk)
  · exact h.forward (h.marked _ hs)

end CarryKept

namespace HoldKept

variable {P : State → Prop} {L : State → SlotNo → Prop} (h : HoldKept P L)
include h

/-! ### Leaving the hold queue -/

theorem release {s : State} {n : SlotNo} (hs : P s) (hn : InHold s n) : P (s.release n) := h.forward (h.leave hs hn)

theorem proceed {s : State} {n : SlotNo} (hs : P s) (hn : InHold s n) : P (s.proceed n) := by
  unfold State.proceed
  split
  · exact h.carryOut (h.released (h.leave hs hn))
  · exact h.release hs hn
  · exact h.release hs hn

theorem clearStep {sc : State × Nat} (n : SlotNo) (hs : P sc.1) : P (clearStep sc n).1 := by
  unfold Machine.clearStep
  split_ifs with hc
  · rw [Bool.and_eq_true] at hc
    exact h.proceed hs (inHold_of_heldAs hc.1)
  · exact hs

theorem clearance {s : State} (hs : P s) : P s.clearance.1 := by
  have hfold : ∀ (l : List SlotNo) (sc : State × Nat), P sc.1 → P (l.foldl Machine.clearStep sc).1 := by
    intro l
    induction l with
    | nil => exact fun sc hsc => hsc
    | cons n l ih => exact fun sc hsc => ih _ (h.clearStep n hsc)
  exact hfold _ _ hs

theorem walkStep {sc : State × Nat} (n : SlotNo) (hs : P sc.1) : P (walkStep sc n).1 := by
  unfold Machine.walkStep
  split_ifs with hd hb
  · exact h.order _ hs (inHold_of_heldForDecision hd)
  · exact h.release hs (inHold_of_heldForDecision hd)
  · exact hs

theorem walk {s : State} (hs : P s) : P s.walk.1 := by
  have hfold : ∀ (l : List SlotNo) (sc : State × Nat), P sc.1 → P (l.foldl Machine.walkStep sc).1 := by
    intro l
    induction l with
    | nil => exact fun sc hsc => hsc
    | cons n l ih => exact fun sc hsc => ih _ (h.walkStep n hsc)
  exact hfold _ _ hs

theorem releaseAll {s : State} (hs : P s) : P s.releaseAll.1 := h.clearance (h.walk hs)

theorem answerHeld {s : State} {n : SlotNo} (o : RecordOutcome) (r : Reason) (d : Option Data) (hs : P s)
    (hn : InHold s n) : P (s.answerHeld n o r d) := h.answer o r d (h.leave hs hn)

/-! ### Expiry and the verbs for held accesses -/

theorem expire {s : State} {n : SlotNo} (hs : P s) (hdue : s.expiryDue n = true) : P (s.expire n) := by
  have hn := inHold_of_expiryDue hdue
  unfold State.expire
  split
  · exact h.clearance (h.same (h.answerHeld _ _ _ hs hn) (.raise _ _))
  · split_ifs
    · exact h.same (h.mark _ _ (h.order _ hs hn)) (.raise _ _)
    · exact h.clearance (h.same (h.mark _ _ (h.release hs hn)) (.raise _ _))

theorem cmdHr {s : State} (o : Operands) (hs : P s) : P (cmdHr o s).1 := by
  unfold Machine.cmdHr
  split
  · exact hs
  · split_ifs with hheld
    · exact hs
    · exact hs
    · exact hs
    · exact h.clearance (h.release hs (inHold_of_slotIs (by simpa using hheld)))
  · split
    · exact hs
    · rename_i hold
      exact h.clearance (h.release hs (inHold_of_heldForDecision (List.find?_some hold)))

theorem cmdHa {s : State} (o : Operands) (hs : P s) : P (cmdHa o s).1 := by
  unfold Machine.cmdHa
  split
  · exact hs
  · split
    · exact hs
    · rename_i hslot
      obtain ⟨ha, hst⟩ := Option.filter_eq_some_iff.1 hslot
      split
      · exact hs
      · exact h.clearance (h.answerHeld _ _ _ hs ⟨_, ha, .inl (beq_iff_eq.1 hst)⟩)

theorem cmdHf {s : State} (o : Operands) (hs : P s) : P (cmdHf o s).1 := by
  unfold Machine.cmdHf
  split
  · exact hs
  · split_ifs with hheld
    · exact h.clearance (h.answerHeld _ _ _ hs (inHold_of_slotIs hheld))
    · exact hs

theorem cmdRa {s : State} (o : Operands) (hs : P s) : P (cmdRa o s).1 := by
  unfold Machine.cmdRa
  split
  · exact hs
  · exact h.releaseAll hs

end HoldKept

namespace AcceptKept

variable {P : State → Prop} {L : State → SlotNo → Prop} (h : AcceptKept P L)
include h

/-! ### Acceptance -/

theorem placeForward {s : State} {n : SlotNo} (hs : L s n) : P (s.placeForward n) := by
  unfold State.placeForward
  split_ifs with hblocked
  · exact h.holdOrder _ hs hblocked
  · exact h.forward hs

theorem placeSubstitute {s : State} {n : SlotNo} (hs : L s n) : P (s.placeSubstitute n) := by
  unfold State.placeSubstitute
  split_ifs with hblocked
  · exact h.holdOrder _ hs hblocked
  · exact h.carryOut hs

theorem placeJudged {s : State} {n : SlotNo} {d : Disposition} (hd : d ≠ .align) (hs : L s n) :
    P (s.placeJudged n d) := by
  cases d with
  | forward => exact h.placeForward hs
  | substitute => exact h.placeSubstitute hs
  | hold => exact h.decision (by decide) hs
  | align => exact absurd rfl hd

theorem acceptJudged {s : State} {n : SlotNo} (req : NearRequest) (hs : P s) (hfree : s.slot n = none)
    (hlive : s.live req.tag = false) : P (s.acceptJudged n req) := by
  have hsame := s.raiseAlerts_sameCore (s.firedEntries (judgedOf req))
  have hjudged := h.judge (judgedOf req) (h.same hs hsame)
  have hdisp := dispOfAction_ne_align (s.winning (s.firedEntries (judgedOf req)))
  have htaken := h.take req _ s.transit.arrivals (s.firedEntries (judgedOf req))
    (s.ownerOf (s.firedEntries (judgedOf req))) (s.winning (s.firedEntries (judgedOf req))) hjudged
    (by rw [State.judgeEntries_slot, hsame.transit.slot, hfree])
    (by simpa [State.live, hsame.transit.slot, hsame.transit.responses] using hlive)
    hdisp
  have hplaced := h.placeJudged hdisp htaken
  unfold State.acceptJudged
  dsimp only
  split_ifs
  · exact h.same hplaced ⟨⟨rfl, rfl, rfl, rfl⟩, rfl, rfl, rfl⟩
  · exact h.same hplaced ⟨⟨rfl, rfl, rfl, rfl⟩, rfl, rfl, rfl⟩
  · exact h.same hplaced ⟨⟨rfl, rfl, rfl, rfl⟩, rfl, rfl, rfl⟩
  · exact hplaced

theorem accept {s : State} {n : SlotNo} (req : NearRequest) (hs : P s) (hfree : s.slot n = none)
    (hlive : s.live req.tag = false) : P (s.accept n req) := by
  have htaken : ∀ d, d ≠ .align → L (s.takeSlot n (newAccess req s.transit.arrivals d none)) n := fun d hd =>
    h.take req d _ [] none none hs hfree hlive hd
  unfold State.accept
  split_ifs
  · cases s.ctrl.op with
    | gated => exact hs
    | bypass => exact h.placeForward (htaken .forward (by decide))
    | frozen => exact h.decision (by decide) (htaken .hold (by decide))
    | watch => exact h.acceptJudged req hs hfree hlive
  · exact h.misaligned req hs hfree hlive

end AcceptKept

end Sys2Proof.Machine
end

section
/-! PROOFS. The laws of the transit table and its queues (R2, R4, R10, R12, R54), stated of the slots as a function: how they
stand a change of one slot together with the queue that the slot leaves or joins. -/

namespace Sys2Proof.Machine

/-- The content of the traffic slots, slot by slot. -/
abbrev Slots := SlotNo → Option Access

theorem State.setSlot_slot (s : State) (n : SlotNo) (a : Option Access) :
    (s.setSlot n a).slot = Function.update s.slot n a := by
  funext m
  rw [State.slot_setSlot]
  by_cases h : n = m
  · subst h
    simp
  · rw [if_neg h, Function.update_of_ne (Ne.symm h)]

theorem State.modSlot_slot (s : State) (n : SlotNo) (f : Access → Access) :
    (s.modSlot n f).slot = Function.update s.slot n ((s.slot n).map f) := s.setSlot_slot n _

/-! ### A queue and the slots in its state -/

/-- The queue `q` holds exactly the slots in state `st`, each once. -/
structure Filed (slots : Slots) (q : List SlotNo) (st : SlotState) : Prop where
  nodup   : q.Nodup
  mem_iff : ∀ n, n ∈ q ↔ ∃ a, slots n = some a ∧ a.state = st

section
variable {slots : Slots} {q : List SlotNo} {st : SlotState}

/-- A slot in another state is in no place of the queue. -/
theorem Filed.absent (h : Filed slots q st) {n : SlotNo} (hn : ∀ a, slots n = some a → a.state ≠ st) :
    Filed (Function.update slots n none) q st := by
  refine ⟨h.nodup, fun m => ?_⟩
  rw [h.mem_iff]
  by_cases hm : m = n
  · subst hm
    simpa using hn
  · rw [Function.update_of_ne hm]

theorem Filed.remove (h : Filed slots q st) (n : SlotNo) :
    Filed (Function.update slots n none) (q.filter (fun m => m != n)) st := by
  refine ⟨h.nodup.filter _, fun m => ?_⟩
  rw [List.mem_filter, h.mem_iff]
  by_cases hm : m = n
  · subst hm
    simp
  · simp [hm]

theorem Filed.head {n : SlotNo} (h : Filed slots (n :: q) st) : Filed (Function.update slots n none) q st := by
  have hnd := List.nodup_cons.1 h.nodup
  refine ⟨hnd.2, fun m => ?_⟩
  have hm' := h.mem_iff m
  rw [List.mem_cons] at hm'
  by_cases hm : m = n
  · subst hm
    simpa using hnd.1
  · rw [Function.update_of_ne hm, ← hm']
    simp [hm]

/-- A slot outside the queue takes a content in another state. -/
theorem Filed.put {n : SlotNo} (h : Filed (Function.update slots n none) q st) {x : Option Access}
    (hx : ∀ a, x = some a → a.state ≠ st) : Filed (Function.update slots n x) q st := by
  refine ⟨h.nodup, fun m => ?_⟩
  rw [h.mem_iff]
  by_cases hm : m = n
  · subst hm
    simpa using hx
  · rw [Function.update_of_ne hm, Function.update_of_ne hm]

/-- A slot outside the queue takes a content in the queue's state, and joins its tail. -/
theorem Filed.push {n : SlotNo} (h : Filed (Function.update slots n none) q st) {a : Access} (ha : a.state = st) :
    Filed (Function.update slots n (some a)) (q ++ [n]) st := by
  have hn : n ∉ q := by
    rw [h.mem_iff]
    simp
  refine ⟨List.nodup_append.2 ⟨h.nodup, List.nodup_singleton n, ?_⟩, fun m => ?_⟩
  · intro m hm k hk
    rw [List.mem_singleton] at hk
    subst hk
    exact fun heq => hn (heq ▸ hm)
  · rw [List.mem_append, List.mem_singleton, h.mem_iff]
    by_cases hm : m = n
    · subst hm
      simpa using ha
    · rw [Function.update_of_ne hm, Function.update_of_ne hm]
      simp [hm]

/-- Slots change within their states. -/
theorem Filed.map (h : Filed slots q st) {slots' : Slots}
    (hs : ∀ n, (slots' n).map Access.state = (slots n).map Access.state) : Filed slots' q st := by
  refine ⟨h.nodup, fun n => ?_⟩
  have hn := hs n
  rw [h.mem_iff]
  constructor
  · rintro ⟨a, ha, hst⟩
    rw [ha] at hn
    obtain ⟨b, hb, hbst⟩ := Option.map_eq_some_iff.1 hn
    exact ⟨b, hb, hbst.trans hst⟩
  · rintro ⟨b, hb, hst⟩
    rw [hb] at hn
    obtain ⟨a, ha, hast⟩ := Option.map_eq_some_iff.1 hn.symm
    exact ⟨a, ha, hast.trans hst⟩

end

/-! ### Live near tags -/

/-- Slot n carries the near tag t live (R2). -/
def Carries (slots : Slots) (n : SlotNo) (t : NearTag) : Prop :=
  ∃ a, slots n = some a ∧ carriesTag a.state = true ∧ a.tag = some t

/-- No near tag is carried live twice (R2). -/
structure TagsOk (slots : Slots) (es : List RespEntry) : Prop where
  unique  : ∀ m n t, Carries slots m t → Carries slots n t → m = n
  entries : (es.map RespEntry.tag).Nodup
  apart   : ∀ n t, Carries slots n t → t ∉ es.map RespEntry.tag

section
variable {slots : Slots} {es : List RespEntry}

theorem carries_update_ne {n m : SlotNo} {x : Option Access} {t : NearTag} (h : m ≠ n) :
    Carries (Function.update slots n x) m t ↔ Carries slots m t := by
  rw [Carries, Carries, Function.update_of_ne h]

theorem carries_update_same {n : SlotNo} {x : Option Access} {t : NearTag} :
    Carries (Function.update slots n x) n t ↔ ∃ a, x = some a ∧ carriesTag a.state = true ∧ a.tag = some t := by
  rw [Carries, Function.update_self]

/-- A slot takes a content whose tag, if it carries one live, no other slot and no entry has. -/
theorem TagsOk.update (h : TagsOk slots es) {n : SlotNo} {x : Option Access}
    (hx : ∀ a t, x = some a → carriesTag a.state = true → a.tag = some t →
      (∀ m, Carries slots m t → m = n) ∧ t ∉ es.map RespEntry.tag) : TagsOk (Function.update slots n x) es := by
  have hnew : ∀ m t, m ≠ n → Carries (Function.update slots n x) m t → ¬ Carries (Function.update slots n x) n t := by
    intro m t hm hc hn
    obtain ⟨a, ha, hst, ht⟩ := carries_update_same.1 hn
    exact hm ((hx a t ha hst ht).1 m ((carries_update_ne hm).1 hc))
  refine ⟨fun m k t hm hk => ?_, h.entries, fun m t hm => ?_⟩
  · by_cases hmn : m = n
    · by_cases hkn : k = n
      · rw [hmn, hkn]
      · exact absurd (hmn ▸ hm) (hnew k t hkn hk)
    · by_cases hkn : k = n
      · exact absurd (hkn ▸ hk) (hnew m t hmn hm)
      · exact h.unique m k t ((carries_update_ne hmn).1 hm) ((carries_update_ne hkn).1 hk)
  · by_cases hmn : m = n
    · subst hmn
      obtain ⟨a, ha, hst, ht⟩ := carries_update_same.1 hm
      exact (hx a t ha hst ht).2
    · exact h.apart m t ((carries_update_ne hmn).1 hm)

/-- A slot takes a content that carries no tag live. -/
theorem TagsOk.drop (h : TagsOk slots es) {n : SlotNo} {x : Option Access}
    (hx : ∀ a, x = some a → carriesTag a.state = false) : TagsOk (Function.update slots n x) es :=
  h.update fun a _ ha hst => by simp [hx a ha] at hst

/-- A slot that carries its tag live keeps the tag. -/
theorem TagsOk.keep (h : TagsOk slots es) {n : SlotNo} {a b : Access} (ha : slots n = some a)
    (hst : carriesTag a.state = true) (hb : b.tag = a.tag) : TagsOk (Function.update slots n (some b)) es := by
  refine h.update fun c t hc _ ht => ?_
  cases hc
  have hcar : Carries slots n t := ⟨a, ha, hst, hb ▸ ht⟩
  exact ⟨fun m hm => h.unique m n t hm hcar, h.apart n t hcar⟩

/-- An entry joins the near response queue with a tag that is not live. -/
theorem TagsOk.append (h : TagsOk slots es) {e : RespEntry} (hslots : ∀ n, ¬ Carries slots n e.tag)
    (hes : e.tag ∉ es.map RespEntry.tag) : TagsOk slots (es ++ [e]) := by
  refine ⟨h.unique, ?_, fun n t hn => ?_⟩
  · rw [List.map_append, List.nodup_append]
    refine ⟨h.entries, List.nodup_singleton _, fun t ht u hu => ?_⟩
    rw [List.map_singleton, List.mem_singleton] at hu
    subst hu
    exact fun heq => hes (heq ▸ ht)
  · rw [List.map_append, List.mem_append, not_or]
    refine ⟨h.apart n t hn, fun ht => ?_⟩
    rw [List.map_singleton, List.mem_singleton] at ht
    exact hslots n (ht ▸ hn)

/-- The tag of a slot goes over to an entry of the near response queue. -/
theorem TagsOk.answer (h : TagsOk slots es) {n : SlotNo} {a : Access} {x : Option Access} {e : RespEntry}
    (ha : slots n = some a) (hst : carriesTag a.state = true) (ht : a.tag = some e.tag)
    (hx : ∀ b, x = some b → carriesTag b.state = false) : TagsOk (Function.update slots n x) (es ++ [e]) := by
  have hcar : Carries slots n e.tag := ⟨a, ha, hst, ht⟩
  refine (h.drop hx).append (fun m hm => ?_) (h.apart n _ hcar)
  by_cases hmn : m = n
  · subst hmn
    obtain ⟨b, hb, hbst, -⟩ := carries_update_same.1 hm
    simp [hx b hb] at hbst
  · exact hmn (h.unique m n _ ((carries_update_ne hmn).1 hm) hcar)

theorem TagsOk.tail {e : RespEntry} (h : TagsOk slots (e :: es)) : TagsOk slots es := by
  refine ⟨h.unique, (List.nodup_cons.1 h.entries).2, fun n t hn ht => h.apart n t hn ?_⟩
  exact List.mem_cons_of_mem _ ht

end

/-! ### The laws of a state -/

/-- R2, R4, R10, R12 and R54 together. -/
structure Lawful (s : State) : Prop where
  slots   : SlotsOk s
  transit : TransitOk s

theorem slotIs_iff (s : State) (n : SlotNo) (st : SlotState) :
    s.slotIs n st = true ↔ ∃ a, s.slot n = some a ∧ a.state = st := by
  simp [State.slotIs, Option.any_eq_true]

theorem transitOk_iff (s : State) : TransitOk s ↔
    Filed s.slot s.hold .held ∧ Filed s.slot s.far.forward .queued ∧
      Filed s.slot (s.near.responses.filterMap RespEntry.slot) .answering ∧ TagsOk s.slot s.near.responses := by
  constructor
  · rintro ⟨hnd, hex, fnd, fex, and, aex, stags, etags, apart⟩
    refine ⟨⟨hnd, fun n => (hex n).trans (slotIs_iff s n _)⟩, ⟨fnd, fun n => (fex n).trans (slotIs_iff s n _)⟩,
      ⟨and, fun n => (aex n).trans (slotIs_iff s n _)⟩, ?_, etags, ?_⟩
    · rintro m n t ⟨a, ha, hac, hat⟩ ⟨b, hb, hbc, hbt⟩
      exact stags m n a b t ha hb hac hbc hat hbt
    · rintro n t ⟨a, ha, hac, hat⟩ ht
      obtain ⟨e, he, rfl⟩ := List.mem_map.1 ht
      exact apart n a e ha hac he hat
  · rintro ⟨hh, hf, ha, ht⟩
    refine ⟨hh.nodup, fun n => (hh.mem_iff n).trans (slotIs_iff s n _).symm, hf.nodup,
      fun n => (hf.mem_iff n).trans (slotIs_iff s n _).symm, ha.nodup,
      fun n => (ha.mem_iff n).trans (slotIs_iff s n _).symm, ?_, ht.entries, ?_⟩
    · exact fun m n a b t ha hb hac hbc hat hbt => ht.unique m n t ⟨a, ha, hac, hat⟩ ⟨b, hb, hbc, hbt⟩
    · exact fun n a e ha hac he hat => ht.apart n e.tag ⟨a, ha, hac, hat⟩ (List.mem_map_of_mem he)

theorem lawful_of {s : State} (hs : ∀ n a, s.slot n = some a → SlotOk a) (hh : Filed s.slot s.hold .held)
    (hf : Filed s.slot s.far.forward .queued)
    (ha : Filed s.slot (s.near.responses.filterMap RespEntry.slot) .answering) (ht : TagsOk s.slot s.near.responses) :
    Lawful s := ⟨hs, (transitOk_iff s).2 ⟨hh, hf, ha, ht⟩⟩

theorem Lawful.same {s t : State} (h : Lawful s) (hst : SameTransit s t) : Lawful t := by
  obtain ⟨hh, hf, ha, ht⟩ := (transitOk_iff s).1 h.transit
  have hslot := hst.slot
  refine lawful_of ?_ ?_ ?_ ?_ ?_
  · rw [hslot]; exact h.slots
  · rw [hslot, hst.hold]; exact hh
  · rw [hslot, hst.forward]; exact hf
  · rw [hslot, hst.responses]; exact ha
  · rw [hslot, hst.responses]; exact ht

/-- The laws of a state whose slot n, holding `a` with a near tag, is in no queue: it is about to be placed. -/
structure Loose (s : State) (n : SlotNo) (a : Access) : Prop where
  slot    : s.slot n = some a
  tag     : a.tag.isSome = true
  carries : carriesTag a.state = true
  data    : a.data.isSome = true ↔ a.cls = .store ∧ a.disp ≠ .align
  others  : ∀ m b, m ≠ n → s.slot m = some b → SlotOk b
  hold    : Filed (Function.update s.slot n none) s.hold .held
  forward : Filed (Function.update s.slot n none) s.far.forward .queued
  answers : Filed (Function.update s.slot n none) (s.near.responses.filterMap RespEntry.slot) .answering
  tags    : TagsOk s.slot s.near.responses

/-- The slot changes while it is in no queue, and keeps its tag. -/
theorem Loose.change {s t : State} {n : SlotNo} {a b : Access} (h : Loose s n a)
    (hslot : t.slot = Function.update s.slot n (some b)) (hhold : t.hold = s.hold)
    (hforward : t.far.forward = s.far.forward) (hnear : t.near.responses = s.near.responses) (htag : b.tag = a.tag)
    (hst : carriesTag b.state = true) (hdata : b.data.isSome = true ↔ b.cls = .store ∧ b.disp ≠ .align) : Loose t n b where
  slot := by rw [hslot, Function.update_self]
  tag := by rw [htag]; exact h.tag
  carries := hst
  data := hdata
  others m c hm hc := by
    rw [hslot, Function.update_of_ne hm] at hc
    exact h.others m c hm hc
  hold := by rw [hslot, hhold, Function.update_idem]; exact h.hold
  forward := by rw [hslot, hforward, Function.update_idem]; exact h.forward
  answers := by rw [hslot, hnear, Function.update_idem]; exact h.answers
  tags := by rw [hslot, hnear]; exact h.tags.keep h.slot h.carries htag

/-- What is not of the transit table and its queues may change. -/
theorem Loose.same {s t : State} {n : SlotNo} {a : Access} (h : Loose s n a) (hst : SameTransit s t) : Loose t n a := by
  obtain ⟨hslot, htag, hcar, hdata, hothers, hhold, hforward, hanswers, htags⟩ := h
  have he := hst.slot
  refine ⟨?_, htag, hcar, hdata, ?_, ?_, ?_, ?_, ?_⟩
  · rw [he]; exact hslot
  · rw [he]; exact hothers
  · rw [he, hst.hold]; exact hhold
  · rw [he, hst.forward]; exact hforward
  · rw [he, hst.responses]; exact hanswers
  · rw [he, hst.responses]; exact htags

section
variable {s t : State} {n : SlotNo} {a b : Access}

theorem slotOk_update (h : ∀ m c, m ≠ n → s.slot m = some c → SlotOk c) {x : Option Access}
    (hx : ∀ c, x = some c → SlotOk c) : ∀ m c, Function.update s.slot n x m = some c → SlotOk c := by
  intro m c hc
  by_cases hm : m = n
  · subst hm
    rw [Function.update_self] at hc
    exact hx c hc
  · rw [Function.update_of_ne hm] at hc
    exact h m c hm hc

/-- The slot joins the tail of the hold queue. -/
theorem Loose.toHold (h : Loose s n a) (hslot : t.slot = Function.update s.slot n (some b))
    (hhold : t.hold = s.hold ++ [n]) (hforward : t.far.forward = s.far.forward)
    (hnear : t.near.responses = s.near.responses) (htag : b.tag = a.tag) (hst : b.state = .held) (hb : SlotOk b) :
    Lawful t := by
  refine lawful_of ?_ ?_ ?_ ?_ ?_
  · rw [hslot]
    exact slotOk_update h.others (fun c hc => by cases hc; exact hb)
  · rw [hslot, hhold]; exact h.hold.push hst
  · rw [hslot, hforward]; exact h.forward.put (fun c hc => by cases hc; simp [hst])
  · rw [hslot, hnear]; exact h.answers.put (fun c hc => by cases hc; simp [hst])
  · rw [hslot, hnear]; exact h.tags.keep h.slot h.carries htag

/-- The slot joins the tail of the forward queue. -/
theorem Loose.toForward (h : Loose s n a) (hslot : t.slot = Function.update s.slot n (some b)) (hhold : t.hold = s.hold)
    (hforward : t.far.forward = s.far.forward ++ [n]) (hnear : t.near.responses = s.near.responses)
    (htag : b.tag = a.tag) (hst : b.state = .queued) (hb : SlotOk b) : Lawful t := by
  refine lawful_of ?_ ?_ ?_ ?_ ?_
  · rw [hslot]
    exact slotOk_update h.others (fun c hc => by cases hc; exact hb)
  · rw [hslot, hhold]; exact h.hold.put (fun c hc => by cases hc; simp [hst])
  · rw [hslot, hforward]; exact h.forward.push hst
  · rw [hslot, hnear]; exact h.answers.put (fun c hc => by cases hc; simp [hst])
  · rw [hslot, hnear]; exact h.tags.keep h.slot h.carries htag

/-- The slot is answered: it becomes ANSWERING and its entry joins the near response queue. -/
theorem Loose.toAnswering {e : RespEntry} (h : Loose s n a) (hslot : t.slot = Function.update s.slot n (some b))
    (hhold : t.hold = s.hold) (hforward : t.far.forward = s.far.forward)
    (hnear : t.near.responses = s.near.responses ++ [e]) (hentry : e.slot = some n) (htag : a.tag = some e.tag)
    (hst : b.state = .answering) (hb : SlotOk b) : Lawful t := by
  refine lawful_of ?_ ?_ ?_ ?_ ?_
  · rw [hslot]
    exact slotOk_update h.others (fun c hc => by cases hc; exact hb)
  · rw [hslot, hhold]; exact h.hold.put (fun c hc => by cases hc; simp [hst])
  · rw [hslot, hforward]; exact h.forward.put (fun c hc => by cases hc; simp [hst])
  · rw [hslot, hnear, List.filterMap_append, List.filterMap_cons_some hentry]; exact h.answers.push hst
  · rw [hslot, hnear]
    exact h.tags.answer h.slot h.carries htag (fun c hc => by cases hc; simp [hst, carriesTag])

/-- The slot is answered by an entry without a slot number: it becomes FREE, or an orphan. -/
theorem Loose.toGone {e : RespEntry} {x : Option Access} (h : Loose s n a) (hslot : t.slot = Function.update s.slot n x)
    (hhold : t.hold = s.hold) (hforward : t.far.forward = s.far.forward)
    (hnear : t.near.responses = s.near.responses ++ [e]) (hentry : e.slot = none) (htag : a.tag = some e.tag)
    (hst : ∀ c, x = some c → c.state = .orphan) (hx : ∀ c, x = some c → SlotOk c) : Lawful t := by
  refine lawful_of ?_ ?_ ?_ ?_ ?_
  · rw [hslot]
    exact slotOk_update h.others hx
  · rw [hslot, hhold]; exact h.hold.put (fun c hc => by simp [hst c hc])
  · rw [hslot, hforward]; exact h.forward.put (fun c hc => by simp [hst c hc])
  · rw [hslot, hnear, List.filterMap_append, List.filterMap_cons_none hentry, List.filterMap_nil, List.append_nil]
    exact h.answers.put (fun c hc => by simp [hst c hc])
  · rw [hslot, hnear]
    exact h.tags.answer h.slot h.carries htag (fun c hc => by simp [hst c hc, carriesTag])

end

end Sys2Proof.Machine
end

section
/-! PROOFS. Each operation on one slot as one record update, the operations that go through all slots, and that every step keeps
the laws of the transit table and its queues. -/

namespace Sys2Proof.Machine

/-! ### Operations on one slot as record updates -/

theorem slot_eq_update {s t : State} {n : SlotNo} {x : Option Access}
    (h : t.transit.slots = s.transit.slots.set n x) : t.slot = Function.update s.slot n x := by
  rw [← State.setSlot_slot]
  funext m
  simp only [State.slot, h, State.setSlot]

/-- A slot whose record is closed and which is answered (R58, R107). -/
theorem State.closeAnswer_eq {s : State} {n : SlotNo} {a : Access} {g : NearTag} (o : RecordOutcome) (r : Reason)
    (d : Option Data) (ha : s.slot n = some a) (hg : a.tag = some g) :
    (s.closeRecord n o (some r) d).answerSlot n r d = { s with
      transit := { s.transit with slots := s.transit.slots.set n (some (answered a)) }
      near := { s.near with
        responses := s.near.responses ++ [{ tag := g, reason := r, data := d, slot := some n }] }
      log := logClosed s.log a.logSeq o r d } := by
  rw [State.closeRecord_eq o r d ha,
    State.answerSlot_eq (a := { a with logSeq := none }) (t := g) r d (by simp [State.slot]) hg]
  simp [answered, left, Access.released]

/-- The far timeout of a traffic slot (R19). -/
theorem State.timeOut_eq {s : State} {n : SlotNo} {a : Access} {g : NearTag} (ha : s.slot n = some a)
    (hg : a.tag = some g) : s.timeOut n = { s with
      transit := { s.transit with
        slots := s.transit.slots.set n (some { a with state := .orphan, tag := none, farTimer := none, logSeq := none }) }
      near := { s.near with
        responses := s.near.responses ++ [{ tag := g, reason := .late, data := none, slot := none }] }
      log := logClosed s.log a.logSeq .farTimeout .late none
      console := offerNotice s.ctrl.params.quiet (.ft n) s.console } := by
  have hloose : (s.respondLoose a.tag .late).slot n = some a := by simp [ha]
  unfold State.timeOut
  rw [ha]
  simp only
  rw [State.closeRecord_eq .farTimeout .late none hloose, hg]
  simp [State.modSlot, State.slot, State.setSlot, State.raise, State.respondLoose, State.respond]

/-- The head of the forward queue is issued with its far timer loaded (R14). -/
theorem State.issueForward_eq {s : State} {n : SlotNo} {rest : List SlotNo} {a : Access}
    (hq : s.far.forward = n :: rest) (ha : s.slot n = some a) : s.issueForward = { s with
      transit := { s.transit with
        slots := s.transit.slots.set n (some { a with state := .issued, farTimer := loaded s.ctrl.params.farTimeout }) }
      far := { s.far with forward := rest, lastRequest := some (slotRequest n a) } } := by
  unfold State.issueForward
  rw [hq]
  dsimp only
  rw [State.modSlot, ha, show State.slot { s with far := { s.far with
    forward := rest, lastRequest := Option.map (slotRequest n) (some a) } } n = some a from ha]
  rfl

/-- One ISSUED slot at a far link reset is answered ABORT without its number and is freed (R24, Table 1-6). -/
theorem State.abortIssued_eq {s : State} {n : SlotNo} {a : Access} {g : NearTag} (ha : s.slot n = some a)
    (hg : a.tag = some g) :
    ((s.respondLoose a.tag .abort).closeRecord n .aborted (some .abort) none).setSlot n none = { s with
      transit := { s.transit with slots := s.transit.slots.set n none }
      near := { s.near with
        responses := s.near.responses ++ [{ tag := g, reason := .abort, data := none, slot := none }] }
      log := logClosed s.log a.logSeq .aborted .abort none } := by
  have hloose : (s.respondLoose a.tag .abort).slot n = some a := by simp [ha]
  rw [State.closeRecord_eq .aborted .abort none hloose, hg]
  simp [State.setSlot, State.respondLoose, State.respond]

/-- A request that is taken and misaligned is ANSWERING at once (R8). -/
theorem State.acceptMisaligned_eq (s : State) (n : SlotNo) (req : NearRequest) : s.acceptMisaligned n req = { s with
      transit := accepted s n { accessOf s req .answering .align none with data := none }
      near := { s.near with
        responses := s.near.responses ++ [{ tag := req.tag, reason := .align, data := none, slot := some n }] } } := rfl

theorem State.takeSlot_slot (s : State) (n : SlotNo) (a : Access) :
    (s.takeSlot n a).slot = Function.update s.slot n (some a) := slot_eq_update rfl

/-- What an attempt to make a record does to its slot, when the slot is not FREE (R101, R105). -/
theorem State.makeRecord_slot (s : State) (n : SlotNo) (r : Word → CaptureRecord) {a : Access}
    (ha : s.slot n = some a) : ∃ q, (s.makeRecord n r).slot = Function.update s.slot n (some { a with logSeq := q }) := by
  unfold State.makeRecord
  split
  · rename_i l _
    refine ⟨some l.counter, ?_⟩
    rw [State.modSlot_slot, show State.slot { s with log := l } = s.slot from rfl, ha]
    rfl
  · refine ⟨a.logSeq, ?_⟩
    rw [show (some { a with logSeq := a.logSeq } : Option Access) = s.slot n from ha.symm, Function.update_eq_self]
    rfl

/-! ### Going through all slots -/

/-- An operation on one slot, carried out on each slot of a list, does to each what it does to one. -/
theorem foldl_slot {f : State → SlotNo → State} {F : Option Access → Option Access}
    (hf : ∀ s n, (f s n).slot = Function.update s.slot n (F (s.slot n))) (l : List SlotNo) (hl : l.Nodup) (s : State)
    (m : SlotNo) : (l.foldl f s).slot m = if m ∈ l then F (s.slot m) else s.slot m := by
  induction l generalizing s with
  | nil => rfl
  | cons n l ih =>
    obtain ⟨hn, hl⟩ := List.nodup_cons.1 hl
    rw [List.foldl_cons, ih hl, hf]
    by_cases hm : m = n
    · subst hm
      simp [hn]
    · simp [hm]

theorem foldl_allSixteen_slot {f : State → SlotNo → State} {F : Option Access → Option Access}
    (hf : ∀ s n, (f s n).slot = Function.update s.slot n (F (s.slot n))) (s : State) (m : SlotNo) :
    (allSixteen.foldl f s).slot m = F (s.slot m) := by
  rw [foldl_slot hf allSixteen (List.nodup_finRange 16), if_pos (show m ∈ allSixteen from List.mem_finRange m)]

/-- A slot after the assertion of NEAR_RESET (Table 1-5). -/
def afterNearReset (x : Option Access) : Option Access :=
  x.bind fun a => match a.state with
    | .issued => some { a with state := .orphan, tag := none, farTimer := none, logSeq := none }
    | .orphan => some a
    | .held | .queued | .answering => none

theorem State.nearResetSlot_slot (s : State) (n : SlotNo) :
    (s.nearResetSlot n).slot = Function.update s.slot n (afterNearReset (s.slot n)) := by
  unfold State.nearResetSlot
  cases ha : s.slot n with
  | none =>
    rw [show afterNearReset none = s.slot n from ha.symm, Function.update_eq_self]
  | some a =>
    cases hst : a.state with
    | held | queued =>
      simp only [afterNearReset, Option.bind_some, hst]
      rw [State.closeRecord_eq .aborted .abort none ha]
      exact slot_eq_update (by simp [State.setSlot])
    | issued =>
      simp only [afterNearReset, Option.bind_some, hst]
      rw [State.closeRecord_eq .aborted .abort none ha]
      exact slot_eq_update (by simp [State.modSlot, State.setSlot, State.slot])
    | answering =>
      simp only [afterNearReset, Option.bind_some, hst]
      exact s.setSlot_slot n none
    | orphan =>
      simp only [afterNearReset, Option.bind_some, hst]
      rw [← ha, Function.update_eq_self]

theorem State.assertNearReset_slot {s : State} (h : s.near.reset = false) (n : SlotNo) :
    s.assertNearReset.slot n = afterNearReset (s.slot n) := by
  have hall := foldl_allSixteen_slot State.nearResetSlot_slot s n
  unfold State.assertNearReset
  rw [if_neg (by simp [h])]
  generalize allSixteen.foldl State.nearResetSlot s = u at hall
  exact hall

theorem afterNearReset_orphan {x : Option Access} {b : Access} (h : afterNearReset x = some b) : b.state = .orphan := by
  obtain ⟨a, -, ha⟩ := Option.bind_eq_some_iff.1 h
  cases hst : a.state <;> simp only [hst, reduceCtorEq, Option.some.injEq] at ha
  · exact ha ▸ rfl
  · exact ha ▸ hst

/-! ### Laws of one access -/

theorem SlotOk.held_noFarTimer {a : Access} (h : SlotOk a) (hst : a.state ≠ .issued) : a.farTimer = none := by
  cases ht : a.farTimer with
  | none => rfl
  | some c => exact absurd (h.farTimer (by simp [ht])) hst

theorem slotOk_left {a : Access} {st : SlotState} (htag : a.tag.isSome = true) (hfar : a.farTimer = none)
    (hdata : a.data.isSome = true ↔ a.cls = .store ∧ a.disp ≠ .align) (h1 : st ≠ .orphan) (h2 : st ≠ .held) :
    SlotOk (left a st) :=
  ⟨by simp [left, htag, h1], by simp [left, h2], by simp [left], by simp [left], by simp [left, hfar], hdata⟩

theorem slotOk_answered {a : Access} (htag : a.tag.isSome = true)
    (hdata : a.data.isSome = true ↔ a.cls = .store ∧ a.disp ≠ .align) : SlotOk (answered a) :=
  ⟨by simp [answered, left, htag], by simp [answered, left], by simp [answered, left], by simp [answered, left],
    by simp [answered, left], hdata⟩

theorem slotOk_orphaned {a : Access} (h : SlotOk a) (hst : a.state = .issued) :
    SlotOk { a with state := .orphan, tag := none, farTimer := none, logSeq := none } := by
  have hreason : a.holdReason = none := by
    have := h.reason
    simpa [hst] using this
  have hpend : a.pendAction = none := by
    have := h.pending
    simpa [hreason] using this
  have htimer : a.holdTimer = none := by
    have := h.timer
    simpa [hreason, Option.eq_none_iff_forall_not_mem] using this
  exact ⟨by simp, by simp [hreason], by simp [hreason, hpend], by simp [htimer], by simp, h.data⟩

theorem slotOk_newAccess (req : NearRequest) (k : Word) {d : Disposition} (owner : Option EntryNo) (hd : d ≠ .align) :
    (newAccess req k d owner).data.isSome = true ↔
      (newAccess req k d owner).cls = .store ∧ (newAccess req k d owner).disp ≠ .align := by
  unfold newAccess requestData
  cases req.cls <;> simp [hd]

theorem slotOk_tick {a : Access} (h : SlotOk a) (frozen : Bool) : SlotOk (tickSlot frozen a) := by
  obtain ⟨htag, hreason, hpend, htimer, hfar, hdata⟩ := h
  refine ⟨htag, hreason, hpend, fun hs => htimer ?_, fun hs => hfar ?_, hdata⟩
  · cases frozen <;> simpa [tickSlot, tickTimer] using hs
  · simpa [tickSlot, tickTimer] using hs

/-! ### Slots that are about to be placed -/

/-- Slot n is in no queue and about to be placed, without a far timer. -/
def Placing (s : State) (n : SlotNo) : Prop := ∃ a, Loose s n a ∧ a.farTimer = none

theorem Lawful.loose_held {s : State} {n : SlotNo} {a : Access} (h : Lawful s) (ha : s.slot n = some a)
    (hst : a.state = .held) : Loose (s.leaveHold n) n a := by
  obtain ⟨hh, hf, hr, ht⟩ := (transitOk_iff s).1 h.transit
  have hok := h.slots n a ha
  refine ⟨ha, hok.tag.2 (by simp [hst]), by simp [hst, carriesTag], hok.data, fun m b _ hb => h.slots m b hb, hh.remove n,
    hf.absent ?_, hr.absent ?_, ht⟩ <;>
  · intro b hb
    rw [ha] at hb
    cases hb
    simp [hst]

theorem Lawful.loose_issued {s : State} {n : SlotNo} {a : Access} (h : Lawful s) (ha : s.slot n = some a)
    (hst : a.state = .issued) : Loose s n a := by
  obtain ⟨hh, hf, hr, ht⟩ := (transitOk_iff s).1 h.transit
  have hok := h.slots n a ha
  refine ⟨ha, hok.tag.2 (by simp [hst]), by simp [hst, carriesTag], hok.data, fun m b _ hb => h.slots m b hb, hh.absent ?_,
    hf.absent ?_, hr.absent ?_, ht⟩ <;>
  · intro b hb
    rw [ha] at hb
    cases hb
    simp [hst]

theorem not_carries_of_live {s : State} {t : NearTag} (h : s.live t = false) :
    (∀ n, ¬ Carries s.slot n t) ∧ t ∉ s.near.responses.map RespEntry.tag := by
  simp only [State.live, Bool.or_eq_false_iff, List.any_eq_false, allSixteen, List.mem_finRange, true_implies] at h
  obtain ⟨hslots, hes⟩ := h
  refine ⟨?_, ?_⟩
  · rintro n ⟨a, ha, hst, ht⟩
    exact hslots n (by simp [ha, hst, ht])
  · intro hmem
    obtain ⟨e, he, rfl⟩ := List.mem_map.1 hmem
    exact hes e he (by simp)

theorem Lawful.loose_taken {s : State} {n : SlotNo} (h : Lawful s) (req : NearRequest) (k : Word) {d : Disposition}
    (owner : Option EntryNo) (hfree : s.slot n = none) (hlive : s.live req.tag = false) (hd : d ≠ .align) :
    Loose (s.takeSlot n (newAccess req k d owner)) n (newAccess req k d owner) := by
  obtain ⟨hh, hf, hr, ht⟩ := (transitOk_iff s).1 h.transit
  obtain ⟨hcarries, hentries⟩ := not_carries_of_live hlive
  have habsent : ∀ st a, s.slot n = some a → a.state ≠ st := fun st a ha => by simp [hfree] at ha
  have hslot := s.takeSlot_slot n (newAccess req k d owner)
  refine ⟨by rw [hslot, Function.update_self], rfl, rfl, slotOk_newAccess req k owner hd, ?_, ?_, ?_, ?_, ?_⟩
  · intro m b hm hb
    rw [hslot, Function.update_of_ne hm] at hb
    exact h.slots m b hb
  · rw [hslot, Function.update_idem]; exact hh.absent (habsent _)
  · rw [hslot, Function.update_idem]; exact hf.absent (habsent _)
  · rw [hslot, Function.update_idem]; exact hr.absent (habsent _)
  · rw [hslot]
    refine ht.update fun a t ha _ htag => ?_
    cases ha
    cases htag
    exact ⟨fun m hm => absurd hm (hcarries m), hentries⟩

theorem Loose.logSeq {s t : State} {n : SlotNo} {a : Access} (h : Loose s n a) (q : Option Word)
    (hslot : t.slot = Function.update s.slot n (some { a with logSeq := q })) (hhold : t.hold = s.hold)
    (hfar : t.far = s.far) (hnear : t.near = s.near) : Loose t n { a with logSeq := q } :=
  h.change hslot hhold (by rw [hfar]) (by rw [hnear]) rfl h.carries h.data

theorem Loose.record {s : State} {n : SlotNo} {a : Access} (h : Loose s n a) (req : NearRequest) (fired : List EntryNo)
    (owner : Option EntryNo) (act : Option Action) :
    ∃ q, Loose (s.recordJudged n req fired owner act) n { a with logSeq := q } := by
  unfold State.recordJudged
  split
  · split_ifs
    · rename_i e _
      obtain ⟨q, hq⟩ := s.makeRecord_slot n (newRecord s n req fired e (dispOfAction act)) h.slot
      exact ⟨q, h.logSeq q hq (by simp) (by simp) (by simp)⟩
    · exact ⟨a.logSeq, h⟩
  · exact ⟨a.logSeq, h⟩

theorem Loose.answer {s : State} {n : SlotNo} {a : Access} (h : Loose s n a) (o : RecordOutcome) (r : Reason)
    (d : Option Data) : Lawful ((s.closeRecord n o (some r) d).answerSlot n r d) := by
  obtain ⟨g, hg⟩ := Option.isSome_iff_exists.1 h.tag
  rw [State.closeAnswer_eq o r d h.slot hg]
  exact h.toAnswering (slot_eq_update rfl) rfl rfl rfl rfl hg rfl (slotOk_answered h.tag h.data)

/-- The laws of the transit table and its queues are kept by every operation that places a slot, holds it or lets it go. -/
theorem lawful_slotKept : SlotKept Lawful Placing where
  same hs hst := hs.same hst.transit
  slot hs := by
    obtain ⟨a, h, -⟩ := hs
    exact ⟨a, h.slot⟩
  judge j hs := hs.same ⟨by simp, by simp, by simp, by simp⟩
  misaligned {s n} req hs hfree hlive := by
    obtain ⟨hcarries, hentries⟩ := not_carries_of_live hlive
    obtain ⟨hh, hf, hr, ht⟩ := (transitOk_iff s).1 hs.transit
    have habsent : ∀ st a, s.slot n = some a → a.state ≠ st := fun st a ha => by simp [hfree] at ha
    have hslot : (s.acceptMisaligned n req).slot = Function.update s.slot n
        (some { accessOf s req .answering .align none with data := none }) := by
      rw [State.acceptMisaligned_eq]
      exact slot_eq_update rfl
    refine lawful_of ?_ ?_ ?_ ?_ ?_ <;> rw [hslot]
    · refine slotOk_update (fun m c _ hc => hs.slots m c hc) (fun c hc => ?_)
      cases hc
      exact ⟨by simp [accessOf], by simp [accessOf], by simp [accessOf], by simp [accessOf], by simp [accessOf],
        by simp [accessOf]⟩
    · exact (hh.absent (habsent _)).put (fun c hc => by cases hc; simp [accessOf])
    · exact (hf.absent (habsent _)).put (fun c hc => by cases hc; simp [accessOf])
    · rw [State.acceptMisaligned_eq, List.filterMap_append]
      exact (hr.absent (habsent _)).push rfl
    · rw [State.acceptMisaligned_eq]
      have hdrop : TagsOk (Function.update s.slot n (some { accessOf s req .answering .align none with data := none }))
          s.near.responses := ht.drop (fun c hc => by cases hc; rfl)
      refine hdrop.append (fun m hm => ?_) hentries
      by_cases hmn : m = n
      · subst hmn
        obtain ⟨b, hb, hst, -⟩ := carries_update_same.1 hm
        cases hb
        simp [accessOf, carriesTag] at hst
      · exact hcarries m ((carries_update_ne hmn).1 hm)
  take req _ k fired owner act hs hfree hlive hd := by
    obtain ⟨q, hq⟩ := (hs.loose_taken req k owner hfree hlive hd).record req fired owner act
    exact ⟨_, hq, rfl⟩
  leave hs hn := by
    obtain ⟨a, ha, hst⟩ := hn
    have hok := hs.slots _ a ha
    have hheld : a.state = .held := hst.elim id hok.reason.1
    exact ⟨a, hs.loose_held ha hheld, hok.held_noFarTimer (by simp [hheld])⟩
  released {s n} hs := by
    obtain ⟨a, h, hfar⟩ := hs
    refine ⟨a.released, h.change ?_ rfl rfl rfl rfl h.carries h.data, hfar⟩
    rw [State.modSlot_slot, h.slot]
    rfl
  hit hs ha _ := by
    obtain ⟨a, h, hfar⟩ := hs
    exact ⟨a, h.same ⟨rfl, rfl, rfl, rfl⟩, hfar⟩
  answer o r d hs := by
    obtain ⟨a, h, -⟩ := hs
    exact h.answer o r d
  marked m hs := by
    obtain ⟨a, h, hfar⟩ := hs
    exact ⟨a, h.same ⟨by simp, by simp, by simp, by simp⟩, hfar⟩
  forward hs := by
    obtain ⟨a, h, hfar⟩ := hs
    rw [State.forwardSlot_eq h.slot]
    exact h.toForward (slot_eq_update rfl) rfl rfl rfl rfl rfl
      (slotOk_left h.tag hfar h.data (by decide) (by decide))
  mark n m hs := hs.same ⟨by simp, by simp, by simp, by simp⟩
  order {s n} p hs hn := by
    obtain ⟨a, ha, hst⟩ := hn
    have hok := hs.slots _ a ha
    have hheld : a.state = .held := hst.elim id hok.reason.1
    obtain ⟨hh, hf, hr, ht⟩ := (transitOk_iff s).1 hs.transit
    have hslot : (s.makeOrder n p).slot = Function.update s.slot n (some { a with
        state := .held, holdReason := some .order, holdTimer := none, pendAction := some p }) := by
      rw [State.makeOrder, State.modSlot_slot, ha]
      rfl
    have hstates : ∀ m, ((s.makeOrder n p).slot m).map Access.state = (s.slot m).map Access.state := by
      intro m
      by_cases hm : m = n
      · subst hm
        simp [hslot, ha, hheld]
      · simp [hslot, hm]
    refine lawful_of ?_ (hh.map hstates) (hf.map hstates) (hr.map hstates) ?_
    · rw [hslot]
      refine slotOk_update (fun m c _ hc => hs.slots m c hc) (fun c hc => ?_)
      cases hc
      exact ⟨by simpa using hok.tag.2 (by simp [hheld]), by simp, by simp, by simp,
        by simp [hok.held_noFarTimer (by simp [hheld])], hok.data⟩
    · rw [hslot]
      exact ht.keep ha (by simp [hheld, carriesTag]) rfl
  holdOrder p hs _ := by
    obtain ⟨a, h, hfar⟩ := hs
    rw [State.holdForOrder_eq p h.slot]
    exact h.toHold (slot_eq_update rfl) rfl rfl rfl rfl rfl
      ⟨by simpa using h.tag, by simp, by simp, by simp, by simp [hfar], h.data⟩
  decision {s n r} hr hs := by
    obtain ⟨a, h, hfar⟩ := hs
    obtain ⟨g, hg⟩ := Option.isSome_iff_exists.1 h.tag
    rw [State.holdForDecision_eq r h.slot hg]
    refine h.toHold (slot_eq_update rfl) rfl rfl rfl rfl rfl
      ⟨by simpa using h.tag, by simp, by simpa using hr, fun _ => ?_, by simp [hfar], h.data⟩
    cases r with
    | watch => exact .inl rfl
    | freeze => exact .inr rfl
    | order => exact absurd rfl hr

/-! ### Events that move other slots -/

theorem Lawful.ofEmpty {s : State} (hs : ∀ n a, s.slot n = some a → SlotOk a ∧ a.state = .orphan) (hh : s.hold = [])
    (hf : s.far.forward = []) (hr : s.near.responses = []) : Lawful s := by
  have hnone : ∀ st, st ≠ .orphan → Filed s.slot [] st := fun st hst =>
    ⟨List.nodup_nil, fun n => by
      simp only [List.not_mem_nil, false_iff, not_exists, not_and]
      intro a ha hast
      exact hst (hast ▸ (hs n a ha).2)⟩
  refine lawful_of (fun n a ha => (hs n a ha).1) ?_ ?_ ?_ ⟨?_, ?_, ?_⟩
  · rw [hh]; exact hnone _ (by decide)
  · rw [hf]; exact hnone _ (by decide)
  · rw [hr]; exact hnone _ (by decide)
  · rintro m n t ⟨a, ha, hst, -⟩
    simp [(hs m a ha).2, carriesTag] at hst
  · rw [hr]; exact List.nodup_nil
  · rintro n t -
    rw [hr]
    exact List.not_mem_nil

theorem Lawful.powerOn (s : State) : Lawful s.powerOn := by
  refine .ofEmpty (fun n a ha => ?_) rfl rfl rfl
  simp [State.powerOn, State.reset, State.slot] at ha

/-- A slot that no queue holds and that carries no tag live becomes FREE. -/
theorem Lawful.free {s : State} {n : SlotNo} {a : Access} (h : Lawful s) (ha : s.slot n = some a)
    (hst : a.state = .orphan) : Lawful (s.setSlot n none) := by
  obtain ⟨hh, hf, hr, ht⟩ := (transitOk_iff s).1 h.transit
  have habsent : ∀ st, st ≠ .orphan → ∀ b, s.slot n = some b → b.state ≠ st := by
    intro st hne b hb
    rw [ha] at hb
    cases hb
    rw [hst]
    exact Ne.symm hne
  refine lawful_of ?_ ?_ ?_ ?_ ?_ <;> rw [State.setSlot_slot]
  · exact slotOk_update (fun m c _ hc => h.slots m c hc) (fun c hc => by cases hc)
  · exact hh.absent (habsent _ (by decide))
  · exact hf.absent (habsent _ (by decide))
  · exact hr.absent (habsent _ (by decide))
  · exact ht.drop (fun c hc => by cases hc)

theorem Lawful.deliver {s : State} (h : Lawful s) : Lawful s.deliver := by
  obtain ⟨hh, hf, hr, ht⟩ := (transitOk_iff s).1 h.transit
  unfold State.deliver
  split
  · exact h
  · rename_i e rest he
    rw [he] at hr ht
    cases hslot : e.slot with
    | none =>
      rw [List.filterMap_cons_none hslot] at hr
      exact lawful_of h.slots hh hf hr ht.tail
    | some n =>
      rw [List.filterMap_cons_some hslot] at hr
      obtain ⟨a, ha, hst⟩ := (hr.mem_iff n).1 List.mem_cons_self
      have habsent : ∀ st, st ≠ .answering → ∀ b, s.slot n = some b → b.state ≠ st := by
        intro st hne b hb
        rw [ha] at hb
        cases hb
        rw [hst]
        exact Ne.symm hne
      simp only [State.freeNamed]
      refine lawful_of ?_ ?_ ?_ ?_ ?_ <;> rw [State.setSlot_slot]
      · exact slotOk_update (fun m c _ hc => h.slots m c hc) (fun c hc => by cases hc)
      · exact hh.absent (habsent _ (by decide))
      · exact hf.absent (habsent _ (by decide))
      · exact hr.head
      · exact ht.tail.drop (fun c hc => by cases hc)

theorem Lawful.issueForward {s : State} (h : Lawful s) : Lawful s.issueForward := by
  obtain ⟨hh, hf, hr, ht⟩ := (transitOk_iff s).1 h.transit
  cases hq : s.far.forward with
  | nil => simpa [State.issueForward, hq] using h
  | cons n rest =>
    rw [hq] at hf
    obtain ⟨a, ha, hst⟩ := (hf.mem_iff n).1 List.mem_cons_self
    have hok := h.slots n a ha
    have habsent : ∀ st, st ≠ .queued → ∀ b, s.slot n = some b → b.state ≠ st := by
      intro st hne b hb
      rw [ha] at hb
      cases hb
      rw [hst]
      exact Ne.symm hne
    have hslot : s.issueForward.slot = Function.update s.slot n
        (some { a with state := .issued, farTimer := loaded s.ctrl.params.farTimeout }) := by
      rw [State.issueForward_eq hq ha]
      exact slot_eq_update rfl
    refine lawful_of ?_ ?_ ?_ ?_ ?_ <;> rw [hslot]
    · refine slotOk_update (fun m c _ hc => h.slots m c hc) (fun c hc => ?_)
      cases hc
      obtain ⟨htag, hreason, hpend, htimer, -, hdata⟩ := hok
      exact ⟨by simpa [hst] using htag, by simpa [hst] using hreason, hpend, htimer, by simp, hdata⟩
    · rw [State.issueForward_eq hq ha]
      exact (hh.absent (habsent _ (by decide))).put (fun c hc => by cases hc; simp)
    · rw [State.issueForward_eq hq ha]
      exact hf.head.put (fun c hc => by cases hc; simp)
    · rw [State.issueForward_eq hq ha]
      exact (hr.absent (habsent _ (by decide))).put (fun c hc => by cases hc; simp)
    · rw [State.issueForward_eq hq ha]
      exact ht.keep ha (by simp [hst, carriesTag]) rfl

theorem Lawful.farToSlot {s : State} (h : Lawful s) (n : SlotNo) (r : FarResponse) : Lawful (s.farToSlot n r) := by
  have hraise : Lawful (s.raise (.fs r.tag)) := h.same (SameCore.raise s _).transit
  unfold State.farToSlot
  cases ha : s.slot n with
  | none => exact hraise
  | some a =>
    cases hst : a.state with
    | issued =>
      simp only [hst, State.completeSlot]
      split
      · exact (h.loose_issued ha hst).answer _ _ _
      · exact (h.loose_issued ha hst).answer _ _ _
    | orphan => simpa only [hst] using h.free ha hst
    | held | queued | answering => simpa only [hst] using hraise

theorem Lawful.mapSlots {s t : State} (h : Lawful s) {f : Access → Access}
    (hslot : ∀ n, t.slot n = (s.slot n).map f) (hhold : t.hold = s.hold) (hforward : t.far.forward = s.far.forward)
    (hnear : t.near.responses = s.near.responses) (hok : ∀ a, SlotOk a → SlotOk (f a))
    (hst : ∀ a, (f a).state = a.state) (htag : ∀ a, (f a).tag = a.tag) : Lawful t := by
  obtain ⟨hh, hf, hr, ht⟩ := (transitOk_iff s).1 h.transit
  have hstates : ∀ n, (t.slot n).map Access.state = (s.slot n).map Access.state := by
    intro n
    simp [hslot, hst, Function.comp_def]
  have hcarries : ∀ n g, Carries t.slot n g → Carries s.slot n g := by
    rintro n g ⟨a, ha, hcar, hg⟩
    rw [hslot] at ha
    obtain ⟨b, hb, rfl⟩ := Option.map_eq_some_iff.1 ha
    exact ⟨b, hb, by rwa [hst] at hcar, by rwa [htag] at hg⟩
  refine lawful_of (fun n a ha => ?_) ?_ ?_ ?_ ⟨?_, ?_, ?_⟩
  · rw [hslot] at ha
    obtain ⟨b, hb, rfl⟩ := Option.map_eq_some_iff.1 ha
    exact hok b (h.slots n b hb)
  · rw [hhold]; exact hh.map hstates
  · rw [hforward]; exact hf.map hstates
  · rw [hnear]; exact hr.map hstates
  · exact fun m n g hm hn => ht.unique m n g (hcarries m g hm) (hcarries n g hn)
  · rw [hnear]; exact ht.entries
  · intro n g hn
    rw [hnear]
    exact ht.apart n g (hcarries n g hn)

theorem Lawful.tick {s : State} (h : Lawful s) : Lawful s.tickAll :=
  h.mapSlots (f := tickSlot (s.ctrl.op == .frozen)) (fun n => by simp) (by simp) (by simp) (by simp)
    (fun a ha => slotOk_tick ha _) (fun _ => rfl) (fun _ => rfl)

theorem Lawful.timeOut {s : State} {n : SlotNo} (h : Lawful s) (hdue : s.farExpiryDue n = true) :
    Lawful (s.timeOut n) := by
  obtain ⟨a, ha, hdue⟩ := (Option.any_eq_true ..).1 hdue
  rw [Bool.and_eq_true, beq_iff_eq] at hdue
  have hst := hdue.1
  have hloose := h.loose_issued ha hst
  obtain ⟨g, hg⟩ := Option.isSome_iff_exists.1 hloose.tag
  rw [State.timeOut_eq ha hg]
  exact hloose.toGone (slot_eq_update rfl) rfl rfl rfl rfl hg (fun c hc => by cases hc; rfl)
    (fun c hc => by cases hc; exact slotOk_orphaned (h.slots n a ha) hst)

theorem Lawful.nearReset {s : State} (h : Lawful s) : Lawful s.assertNearReset := by
  cases hreset : s.near.reset with
  | true => simpa [State.assertNearReset, hreset] using h
  | false =>
    refine .ofEmpty (fun n b hb => ?_) ?_ ?_ ?_
    · rw [State.assertNearReset_slot hreset] at hb
      refine ⟨?_, afterNearReset_orphan hb⟩
      obtain ⟨a, ha, hab⟩ := Option.bind_eq_some_iff.1 hb
      cases hst : a.state <;> simp only [hst, reduceCtorEq, Option.some.injEq] at hab
      · exact hab ▸ slotOk_orphaned (h.slots n a ha) hst
      · exact hab ▸ h.slots n a ha
    all_goals simp [State.assertNearReset, hreset]

theorem Lawful.farResetStep {acc : State × Nat × Nat} (h : Lawful acc.1) (n : SlotNo) :
    Lawful (farResetStep acc n).1 := by
  unfold Machine.farResetStep
  cases ha : acc.1.slot n with
  | none => exact h
  | some a =>
    cases hst : a.state with
    | issued =>
      have hloose := h.loose_issued ha hst
      obtain ⟨g, hg⟩ := Option.isSome_iff_exists.1 hloose.tag
      simp only [hst]
      rw [State.abortIssued_eq ha hg]
      exact hloose.toGone (slot_eq_update rfl) rfl rfl rfl rfl hg (fun c hc => by cases hc) (fun c hc => by cases hc)
    | orphan => simpa only [hst] using h.free ha hst
    | held | queued | answering => simpa only [hst] using h

theorem farResetM_sameCore (acc : State × Nat × Nat) : SameCore acc.1 (farResetM acc).1 := by
  unfold farResetM
  split
  · exact .refl _
  · split <;> exact ⟨⟨rfl, rfl, rfl, rfl⟩, rfl, rfl, rfl⟩

/-- A predicate of the core that one slot's step of a far link reset keeps is kept by the whole reset. -/
theorem farReset_kept {P : State → Prop} (hsame : ∀ {s t}, P s → SameCore s t → P t)
    (hstep : ∀ {acc : State × Nat × Nat} (n : SlotNo), P acc.1 → P (farResetStep acc n).1) {s : State} (hs : P s) :
    P s.farReset.1 := by
  have hfold : ∀ (l : List SlotNo) (acc : State × Nat × Nat), P acc.1 → P (l.foldl farResetStep acc).1 := by
    intro l
    induction l with
    | nil => exact fun acc hacc => hacc
    | cons n l ih => exact fun acc hacc => ih _ (hstep n hacc)
  have hall := hfold allSixteen (s, 0, 0) hs
  unfold State.farReset
  generalize allSixteen.foldl farResetStep (s, 0, 0) = acc at hall
  exact hsame (hsame hall (farResetM_sameCore acc)) ⟨⟨rfl, rfl, rfl, rfl⟩, rfl, rfl, rfl⟩

/-! ### Verbs -/

/-- The rule of a verb that changes the tables or the log, and no slot or queue. -/
def leavesTransit : Verb → Bool
  | .ws | .wr | .wa | .wd | .wx | .ss | .sx | .ln | .lc | .lm => true
  | _ => false

theorem verbRule_sameTransit {v : Verb} (hv : leavesTransit v = true) (src : Source) (o : Operands) (s : State) :
    SameTransit s (verbRule v src o s).1 := by
  cases v with
  | ws => simp only [verbRule, cmdWs]; split <;> [exact .refl s; (split_ifs <;> exact ⟨rfl, rfl, rfl, rfl⟩)]
  | wr => simp only [verbRule, cmdWr]; split <;> [exact .refl s; (split <;> exact ⟨rfl, rfl, rfl, rfl⟩)]
  | wa => simp only [verbRule, cmdWa]; split <;> [exact .refl s; (split <;> exact ⟨rfl, rfl, rfl, rfl⟩)]
  | wd => simp only [verbRule, cmdWd]; split <;> [exact .refl s; (split_ifs <;> exact ⟨rfl, rfl, rfl, rfl⟩)]
  | wx => simp only [verbRule, cmdWx]; split <;> exact ⟨rfl, rfl, rfl, rfl⟩
  | ss => simp only [verbRule, cmdSs]; split <;> exact ⟨rfl, rfl, rfl, rfl⟩
  | sx => simp only [verbRule, cmdSx]; split <;> exact ⟨rfl, rfl, rfl, rfl⟩
  | ln =>
    simp only [verbRule, cmdLn]
    split
    · exact .refl s
    · split
      · exact .refl s
      · split_ifs <;> exact ⟨rfl, rfl, rfl, rfl⟩
  | lc => simp only [verbRule, cmdLc]; split <;> exact ⟨rfl, rfl, rfl, rfl⟩
  | lm => simp only [verbRule, cmdLm]; split <;> exact ⟨rfl, rfl, rfl, rfl⟩
  | _ => cases hv

/-- The verbs that move slots: the far link reset, the verbs for held accesses, and soft clear. -/
theorem verb_cases {v : Verb} (hv : leavesCore v = false) (ht : leavesTransit v = false) :
    v = .fr ∨ v = .hr ∨ v = .ha ∨ v = .hf ∨ v = .ra ∨ v = .cl := by
  cases v <;> simp [leavesCore, leavesTransit] at hv ht ⊢

theorem Lawful.cmdFr {s : State} (h : Lawful s) (o : Operands) : Lawful (cmdFr o s).1 := by
  unfold Machine.cmdFr
  split
  · exact h
  · exact farReset_kept (fun hs hst => hs.same hst.transit) (fun n hs => Lawful.farResetStep hs n) h

theorem Lawful.clearRecords {s : State} (h : Lawful s) : Lawful s.clearRecords :=
  h.mapSlots (fun n => s.slot_clearRecords n) rfl rfl rfl
    (fun a ha => by
      obtain ⟨htag, hreason, hpend, htimer, hfar, hdata⟩ := ha
      exact ⟨htag, hreason, hpend, htimer, hfar, hdata⟩)
    (fun _ => rfl) (fun _ => rfl)

theorem Lawful.cmdCl {s : State} (h : Lawful s) (o : Operands) : Lawful (cmdCl o s).1 := by
  unfold Machine.cmdCl
  split
  · exact h
  · exact (lawful_slotKept.releaseAll h.clearRecords).same ⟨by simp, by simp, by simp, by simp⟩

theorem lawful_kept : Kept Lawful where
  core hs hst := hs.same hst.transit
  powerOn {s} _ := .powerOn s
  accept req hs hfree hlive := lawful_slotKept.accept req hs hfree hlive
  deliver hs := hs.deliver
  issue hs := hs.issueForward
  far n r hs := hs.farToSlot n r
  tick hs := hs.tick
  timeOut hs hdue := hs.timeOut hdue
  expire hs hdue := lawful_slotKept.expire hs hdue
  nearReset hs := hs.nearReset
  trigger hs := hs.same ⟨by simp, by simp, by simp, by simp⟩
  verb v src o hv hs := by
    cases ht : leavesTransit v with
    | true => exact hs.same (verbRule_sameTransit ht src o _)
    | false =>
      obtain rfl | rfl | rfl | rfl | rfl | rfl := verb_cases hv ht
      · exact hs.cmdFr o
      · exact lawful_slotKept.cmdHr o hs
      · exact lawful_slotKept.cmdHa o hs
      · exact lawful_slotKept.cmdHf o hs
      · exact lawful_slotKept.cmdRa o hs
      · exact hs.cmdCl o
  wipe hs := hs.same ⟨rfl, rfl, rfl, rfl⟩

/-- Settles O54: `Lawful` is kept by each operation (`lawful_slotKept` for those on one slot), so by each step. -/
theorem stepKeepsTransit : Obligations.StepKeepsTransit := by
  unfold Obligations.StepKeepsTransit
  intro s t hslots htransit hstep
  have h := lawful_kept.step ⟨hslots, htransit⟩ hstep
  exact ⟨h.slots, h.transit⟩

end Sys2Proof.Machine
end

section
/-! PROOFS. The law of the capture log (R99, R101, R107): how it stands a change of one slot, a record that is closed, marked,
made or removed; and that every step keeps it. -/

namespace Sys2Proof.Machine

/-! ### Records under a close and a mark -/

@[simp] theorem CaptureRecord.close_seq (c : CaptureRecord) (o : RecordOutcome) (r : Option Reason) (d : Option Data) :
    (c.close o r d).seq = c.seq := by
  unfold CaptureRecord.close
  split <;> rfl

@[simp] theorem CaptureRecord.close_isOpen (c : CaptureRecord) (o : RecordOutcome) (r : Option Reason) (d : Option Data) :
    (c.close o r d).isOpen = false := by
  unfold CaptureRecord.close CaptureRecord.isOpen
  cases hst : c.status <;> simp [hst]

@[simp] theorem CaptureRecord.mark_seq (c : CaptureRecord) (m : PathMark) : (c.mark m).seq = c.seq := by
  unfold CaptureRecord.mark
  split <;> rfl

@[simp] theorem CaptureRecord.mark_isOpen (c : CaptureRecord) (m : PathMark) : (c.mark m).isOpen = c.isOpen := by
  unfold CaptureRecord.mark CaptureRecord.isOpen
  cases hst : c.status <;> simp [hst]

/-! ### The law under single changes -/

theorem slotSeq_of_slot {s : State} {n : SlotNo} {x : Option Access} (h : s.slot n = x) :
    s.slotSeq n = x.bind Access.logSeq := by rw [State.slotSeq, h]

section
variable {s t : State} {n : SlotNo} {x : Option Access}

theorem slotSeq_update (hslot : t.slot = Function.update s.slot n x) (m : SlotNo) :
    t.slotSeq m = if m = n then x.bind Access.logSeq else s.slotSeq m := by
  rw [State.slotSeq, hslot]
  by_cases hm : m = n
  · subst hm
    simp
  · simp [hm, State.slotSeq]

theorem LogOk.seq_carries (h : LogOk s) {a : Access} (ha : s.slot n = some a) (hst : carriesTag a.state = false) :
    s.slotSeq n = none := by
  rw [slotSeq_of_slot ha, Option.bind_some]
  cases hq : a.logSeq with
  | none => rfl
  | some q =>
    obtain ⟨hcar, -⟩ := h.named n a q ha hq
    simp [hst] at hcar

/-- A slot changes and keeps its log sequence number; records keep their numbers and stay OPEN or CLOSED. -/
theorem LogOk.records (h : LogOk s) {f : CaptureRecord → CaptureRecord} (hlog : t.log.records = s.log.records.map f)
    (hcounter : t.log.counter = s.log.counter) (hf : ∀ c, (f c).seq = c.seq) (hopen : ∀ c, (f c).isOpen = c.isOpen)
    (hseq : ∀ m, t.slotSeq m = s.slotSeq m)
    (hcar : ∀ m a q, t.slot m = some a → a.logSeq = some q → carriesTag a.state = true) : LogOk t := by
  have hmem : ∀ r, r ∈ t.log.records ↔ ∃ c ∈ s.log.records, f c = r := fun r => by rw [hlog, List.mem_map]
  refine ⟨?_, ?_, ?_, ?_, ?_, ?_⟩
  · rw [hlog, List.length_map]; exact h.room
  · rw [hlog, List.pairwise_map]
    simpa only [hf] using h.ordered
  · intro r hr
    obtain ⟨c, hc, rfl⟩ := (hmem r).1 hr
    rw [hf, hcounter]
    exact h.counted c hc
  · intro m a q ha hq
    have hsq : s.slotSeq m = some q := by rw [← hseq, slotSeq_of_slot ha, Option.bind_some, hq]
    obtain ⟨b, hb, hbq⟩ := Option.bind_eq_some_iff.1 hsq
    obtain ⟨-, r, hr, hrq, hro⟩ := h.named m b q hb hbq
    exact ⟨hcar m a q ha hq, f r, (hmem _).2 ⟨r, hr, rfl⟩, by rw [hf, hrq], by rw [hopen, hro]⟩
  · intro r hr hro
    obtain ⟨c, hc, rfl⟩ := (hmem r).1 hr
    rw [hopen] at hro
    obtain ⟨m, hm⟩ := h.open1 c hc hro
    exact ⟨m, by rw [hseq, hm, hf]⟩
  · intro m k q hm hk
    rw [hseq] at hm hk
    exact h.once m k q hm hk

theorem LogOk.slot (h : LogOk s) (hlog : t.log = s.log) (hslot : t.slot = Function.update s.slot n x)
    (hseq : x.bind Access.logSeq = s.slotSeq n)
    (hcar : ∀ a q, x = some a → a.logSeq = some q → carriesTag a.state = true) : LogOk t := by
  refine h.records (f := id) (by rw [hlog, List.map_id]) (by rw [hlog]) (fun _ => rfl) (fun _ => rfl) (fun m => ?_)
    (fun m a q ha hq => ?_)
  · rw [slotSeq_update hslot]
    split_ifs with hm
    · rw [hm, hseq]
    · rfl
  · rw [hslot] at ha
    by_cases hm : m = n
    · subst hm
      rw [Function.update_self] at ha
      exact hcar a q ha hq
    · rw [Function.update_of_ne hm] at ha
      exact (h.named m a q ha hq).1

theorem LogOk.same (h : LogOk s) (hslot : t.slot = s.slot) (hlog : t.log = s.log) : LogOk t := by
  refine h.records (f := id) (by rw [hlog, List.map_id]) (by rw [hlog]) (fun _ => rfl) (fun _ => rfl) (fun m => ?_)
    (fun m a q ha hq => (h.named m a q (hslot ▸ ha) hq).1)
  rw [State.slotSeq, State.slotSeq, hslot]

/-- A record takes a path mark (R106). -/
theorem LogOk.marked (h : LogOk s) (m : PathMark) (q : Option Word) (hslot : t.slot = s.slot)
    (hlog : t.log = logMarked s.log q m) : LogOk t := by
  cases q with
  | none => exact h.same hslot hlog
  | some q =>
    refine h.records (f := fun c => if c.seq = q then c.mark m else c) (by rw [hlog]; rfl) (by rw [hlog]; rfl) ?_ ?_
      (fun k => by rw [State.slotSeq, State.slotSeq, hslot]) (fun k a p ha hp => (h.named k a p (hslot ▸ ha) hp).1)
    · intro c
      split_ifs <;> simp
    · intro c
      split_ifs <;> simp

/-- The record that a slot names is closed, and the slot loses its number (R107). -/
theorem LogOk.closed (h : LogOk s) (o : RecordOutcome) (r : Reason) (d : Option Data)
    (hlog : t.log = logClosed s.log (s.slotSeq n) o r d) (hslot : t.slot = Function.update s.slot n x)
    (hx : x.bind Access.logSeq = none) : LogOk t := by
  have hxcar : ∀ a q, x = some a → a.logSeq = some q → carriesTag a.state = true := fun a q ha hq => by
    rw [ha, Option.bind_some, hq] at hx
    cases hx
  cases hq : s.slotSeq n with
  | none => exact h.slot (by rw [hlog, hq]; rfl) hslot (by rw [hx, hq]) hxcar
  | some q =>
    rw [hq] at hlog
    have hseq := slotSeq_update hslot
    have hmem : ∀ c, c ∈ t.log.records ↔ ∃ b ∈ s.log.records, (if b.seq = q then b.close o (some r) d else b) = c :=
      fun c => by rw [hlog]; exact List.mem_map
    have hkeep : ∀ b : CaptureRecord, (if b.seq = q then b.close o (some r) d else b).seq = b.seq := fun b => by
      split_ifs <;> simp
    have hopen : ∀ b : CaptureRecord, (if b.seq = q then b.close o (some r) d else b).isOpen = true ↔
        b.seq ≠ q ∧ b.isOpen = true := fun b => by
      split_ifs with hb <;> simp [hb]
    refine ⟨?_, ?_, ?_, ?_, ?_, ?_⟩
    · rw [hlog]
      exact (List.length_map _).trans_le h.room
    · rw [hlog]
      refine List.pairwise_map.2 (h.ordered.imp ?_)
      intro b c hbc
      rwa [hkeep, hkeep]
    · intro c hc
      obtain ⟨b, hb, rfl⟩ := (hmem c).1 hc
      rw [hkeep, hlog]
      exact h.counted b hb
    · intro m a p ha hp
      have hsm := hseq m
      rw [slotSeq_of_slot ha, Option.bind_some, hp] at hsm
      split_ifs at hsm with hmn
      · rw [hx] at hsm
        cases hsm
      · obtain ⟨b, hb, hbp⟩ := Option.bind_eq_some_iff.1 hsm.symm
        obtain ⟨hcar, c, hc, hcp, hco⟩ := h.named m b p hb hbp
        have hne : p ≠ q := fun he => hmn (h.once m n p hsm.symm (he ▸ hq))
        rw [hslot, Function.update_of_ne hmn, hb] at ha
        cases ha
        exact ⟨hcar, c, (hmem c).2 ⟨c, hc, if_neg (hcp ▸ hne)⟩, hcp, hco⟩
    · intro c hc hco
      obtain ⟨b, hb, rfl⟩ := (hmem c).1 hc
      obtain ⟨hbq, hbo⟩ := (hopen b).1 hco
      obtain ⟨m, hm⟩ := h.open1 b hb hbo
      refine ⟨m, ?_⟩
      rw [hseq, hkeep, if_neg, hm]
      intro hmn
      rw [hmn, hq] at hm
      exact hbq (Option.some.inj hm).symm
    · intro m k p hm hk
      rw [hseq] at hm hk
      split_ifs at hm hk with h1 h2 h2
      · rw [h1, h2]
      · rw [hx] at hm; cases hm
      · rw [hx] at hk; cases hk
      · exact h.once m k p hm hk

/-- CLOSED records are removed, and the others stay in their order. -/
theorem LogOk.removed (h : LogOk s) (hslot : t.slot = s.slot) (hcounter : t.log.counter = s.log.counter)
    (hsub : t.log.records.Sublist s.log.records)
    (hopen : ∀ r ∈ s.log.records, r.isOpen = true → r ∈ t.log.records) : LogOk t := by
  have hseq : ∀ m, t.slotSeq m = s.slotSeq m := fun m => by rw [State.slotSeq, State.slotSeq, hslot]
  refine ⟨hsub.length_le.trans h.room, h.ordered.sublist hsub, ?_, ?_, ?_, ?_⟩
  · intro r hr
    rw [hcounter]
    exact h.counted r (hsub.subset hr)
  · intro m a q ha hq
    obtain ⟨hcar, r, hr, hrq, hro⟩ := h.named m a q (hslot ▸ ha) hq
    exact ⟨hcar, r, hopen r hr hro, hrq, hro⟩
  · intro r hr hro
    obtain ⟨m, hm⟩ := h.open1 r (hsub.subset hr) hro
    exact ⟨m, by rw [hseq, hm]⟩
  · intro m k q hm hk
    rw [hseq] at hm hk
    exact h.once m k q hm hk

/-- With no OPEN record and no slot that names one there is nothing to say of the slots. -/
theorem LogOk.ofNone (hroom : t.log.records.length ≤ Config.logRoom)
    (hordered : t.log.records.Pairwise (fun a b => a.seq < b.seq)) (hcounted : ∀ r ∈ t.log.records, r.seq ≤ t.log.counter)
    (hopen : ∀ r ∈ t.log.records, r.isOpen = false) (hseq : ∀ m, t.slotSeq m = none) : LogOk t := by
  refine ⟨hroom, hordered, hcounted, ?_, ?_, ?_⟩
  · intro m a q ha hq
    have := hseq m
    rw [slotSeq_of_slot ha, Option.bind_some, hq] at this
    cases this
  · intro r hr hro
    rw [hopen r hr] at hro
    cases hro
  · intro m k q hm
    rw [hseq] at hm
    cases hm

end

/-! ### A new record -/

theorem lt_counter_add_one {q c : Word} (h : q ≤ c) (hc : c ≠ BitVec.allOnes 32) : q < c + 1 := by
  have hne : c.toNat ≠ 2 ^ 32 - 1 := fun he => hc (BitVec.eq_of_toNat_eq (by rw [he, BitVec.toNat_allOnes]))
  bv_omega

/-- A record is appended with the next number, and a slot that names none names it (R101). -/
theorem LogOk.append {s t : State} {n : SlotNo} {a : Access} {r : Word → CaptureRecord} (h : LogOk s)
    (hcounter : s.log.counter ≠ BitVec.allOnes 32) (hroom : s.log.records.length < Config.logRoom)
    (hr : ∀ q, (r q).seq = q ∧ (r q).isOpen = true) (hnone : s.slotSeq n = none)
    (hlog : t.log = s.log.append r)
    (hslot : t.slot = Function.update s.slot n (some { a with logSeq := some (s.log.counter + 1) }))
    (hcar : carriesTag a.state = true) : LogOk t := by
  have hseq := slotSeq_update hslot
  have hmem : ∀ c, c ∈ t.log.records ↔ c ∈ s.log.records ∨ c = r (s.log.counter + 1) := fun c => by
    rw [hlog, Log.append, List.mem_append, List.mem_singleton]
  have hbelow : ∀ c ∈ s.log.records, c.seq < s.log.counter + 1 := fun c hc =>
    lt_counter_add_one (h.counted c hc) hcounter
  have hold : ∀ m, s.slotSeq m ≠ some (s.log.counter + 1) := by
    intro m hm
    obtain ⟨b, hb, hbq⟩ := Option.bind_eq_some_iff.1 hm
    obtain ⟨-, c, hc, hcq, -⟩ := h.named m b _ hb hbq
    have := hbelow c hc
    rw [hcq] at this
    exact BitVec.lt_irrefl _ this
  refine ⟨?_, ?_, ?_, ?_, ?_, ?_⟩
  · rw [hlog, Log.append, List.length_append]
    exact hroom
  · rw [hlog, Log.append]
    refine List.pairwise_append.2 ⟨h.ordered, List.pairwise_singleton _ _, fun c hc b hb => ?_⟩
    rw [List.mem_singleton] at hb
    rw [hb, (hr _).1]
    exact hbelow c hc
  · intro c hc
    have hcnt : t.log.counter = s.log.counter + 1 := by rw [hlog, Log.append]
    rw [hcnt]
    rcases (hmem c).1 hc with hc | rfl
    · exact BitVec.le_of_lt (hbelow c hc)
    · rw [(hr _).1]
      exact BitVec.le_refl _
  · intro m b q hb hq
    rw [hslot] at hb
    by_cases hm : m = n
    · subst hm
      rw [Function.update_self] at hb
      cases hb
      cases hq
      exact ⟨hcar, _, (hmem _).2 (.inr rfl), (hr _).1, (hr _).2⟩
    · rw [Function.update_of_ne hm] at hb
      obtain ⟨hbc, c, hc, hcq, hco⟩ := h.named m b q hb hq
      exact ⟨hbc, c, (hmem c).2 (.inl hc), hcq, hco⟩
  · intro c hc hco
    rcases (hmem c).1 hc with hc | rfl
    · obtain ⟨m, hm⟩ := h.open1 c hc hco
      refine ⟨m, ?_⟩
      rw [hseq, if_neg, hm]
      rintro rfl
      rw [hnone] at hm
      cases hm
    · refine ⟨n, ?_⟩
      rw [hseq, if_pos rfl, (hr _).1]
      rfl
  · intro m k q hm hk
    rw [hseq] at hm hk
    split_ifs at hm hk with h1 h2 h2
    · rw [h1, h2]
    · cases hm
      exact absurd hk (hold k)
    · cases hk
      exact absurd hm (hold m)
    · exact h.once m k q hm hk

/-- The oldest record leaves when it is CLOSED. -/
theorem LogOk.dropOldest {s : State} (h : LogOk s) (hclosed : s.log.oldestClosed = true) :
    LogOk { s with log := s.log.dropOldest } := by
  refine h.removed rfl rfl (List.tail_sublist _) (fun r hr hro => ?_)
  unfold Log.oldestClosed at hclosed
  unfold Log.dropOldest
  cases hrec : s.log.records with
  | nil => simp [hrec] at hr
  | cons c rest =>
    rw [hrec] at hclosed hr
    rcases List.mem_cons.1 hr with rfl | hr
    · simp [hro] at hclosed
    · exact hr

theorem LogOk.makeRecord {s : State} {n : SlotNo} {a : Access} {r : Word → CaptureRecord} (h : LogOk s)
    (hr : ∀ q, (r q).seq = q ∧ (r q).isOpen = true) (ha : s.slot n = some a) (hnone : a.logSeq = none)
    (hcar : carriesTag a.state = true) : LogOk (s.makeRecord n r) := by
  have hseq : s.slotSeq n = none := by rw [slotSeq_of_slot ha]; exact hnone
  unfold State.makeRecord
  cases hmake : s.log.make r with
  | none =>
    exact LogOk.records (t := { s with log := s.log.countLost }) h (f := id) (List.map_id _).symm rfl (fun _ => rfl)
      (fun _ => rfl) (fun _ => rfl) (fun m b q hb hq => (h.named m b q hb hq).1)
  | some l =>
    have hslot : (State.modSlot { s with log := l } n (fun a => { a with logSeq := some l.counter })).slot =
        Function.update s.slot n (some { a with logSeq := some l.counter }) := by
      rw [State.modSlot_slot, show State.slot { s with log := l } = s.slot from rfl, ha]
      rfl
    unfold Log.make at hmake
    split_ifs at hmake with hcounter hroom hdrop
    · cases hmake
      exact h.append hcounter hroom hr hseq rfl hslot hcar
    · cases hmake
      have hdropped := h.dropOldest hdrop.2
      refine hdropped.append (n := n) (a := a) hcounter ?_ hr hseq rfl hslot hcar
      have := h.room
      have hne : s.log.records ≠ [] := fun hnil => by simp [hnil] at hroom
      have := List.length_pos_iff.2 hne
      simp only [Log.dropOldest, List.length_tail]
      omega

/-! ### The operations on one slot -/

/-- The laws of the transit table, its queues and the log together. -/
structure LogLawful (s : State) : Prop where
  lawful : Lawful s
  log    : LogOk s

theorem LogOk.answer {s : State} {n : SlotNo} {a : Access} {g : NearTag} (h : LogOk s) (ha : s.slot n = some a)
    (hg : a.tag = some g) (o : RecordOutcome) (r : Reason) (d : Option Data) :
    LogOk ((s.closeRecord n o (some r) d).answerSlot n r d) := by
  rw [State.closeAnswer_eq o r d ha hg]
  exact h.closed o r d (by rw [slotSeq_of_slot ha]; rfl) (slot_eq_update rfl) rfl

theorem LogOk.markRecord {s : State} (h : LogOk s) (n : SlotNo) (m : PathMark) : LogOk (s.markRecord n m) := by
  cases ha : s.slot n with
  | none => simpa [State.markRecord, State.slotSeq, ha] using h
  | some a =>
    rw [State.markRecord_eq m ha]
    exact h.marked m a.logSeq rfl rfl

theorem newRecord_open (s : State) (n : SlotNo) (req : NearRequest) (fired : List EntryNo) (e : EntryNo)
    (d : Disposition) (q : Word) :
    (newRecord s n req fired e d q).seq = q ∧ (newRecord s n req fired e d q).isOpen = true := ⟨rfl, rfl⟩

theorem logLawful_slotKept : SlotKept LogLawful (fun s n => Placing s n ∧ LogOk s) where
  same hs hst := ⟨hs.lawful.same hst.transit, hs.log.same hst.transit.slot hst.tables.log⟩
  slot hs := lawful_slotKept.slot hs.1
  judge j hs := ⟨lawful_slotKept.judge j hs.lawful, hs.log.same (funext fun n => by simp) (by simp)⟩
  misaligned {s n} req hs hfree hlive := by
    refine ⟨lawful_slotKept.misaligned req hs.lawful hfree hlive, ?_⟩
    rw [State.acceptMisaligned_eq]
    exact hs.log.slot (n := n) rfl (slot_eq_update rfl) (slotSeq_of_slot hfree).symm (fun a q ha hq => by cases ha; cases hq)
  take {s n} req d k fired owner act hs hfree hlive hd := by
    refine ⟨lawful_slotKept.take req d k fired owner act hs.lawful hfree hlive hd, ?_⟩
    have hslot := s.takeSlot_slot n (newAccess req k d owner)
    have htaken : LogOk (s.takeSlot n (newAccess req k d owner)) :=
      hs.log.slot (n := n) (by simp) hslot (slotSeq_of_slot hfree).symm (fun a q ha hq => by cases ha; cases hq)
    unfold State.recordJudged
    split
    · split_ifs
      · exact htaken.makeRecord (newRecord_open _ _ _ _ _ _) (by rw [hslot, Function.update_self]) rfl rfl
      · exact htaken
    · exact htaken
  holdOrder {s n} p hs hb := by
    obtain ⟨hp, hlog⟩ := hs
    refine ⟨lawful_slotKept.holdOrder p hp hb, ?_⟩
    obtain ⟨a, h, -⟩ := hp
    rw [State.holdForOrder_eq p h.slot]
    exact hlog.slot (n := n) rfl (slot_eq_update rfl) (slotSeq_of_slot h.slot).symm (fun b q hb _ => by cases hb; rfl)
  decision {s n r} hr hs := by
    obtain ⟨hp, hlog⟩ := hs
    refine ⟨lawful_slotKept.decision hr hp, ?_⟩
    obtain ⟨a, h, -⟩ := hp
    obtain ⟨g, hg⟩ := Option.isSome_iff_exists.1 h.tag
    rw [State.holdForDecision_eq r h.slot hg]
    exact hlog.slot (n := n) rfl (slot_eq_update rfl) (slotSeq_of_slot h.slot).symm (fun b q hb _ => by cases hb; rfl)
  leave hs hn := ⟨lawful_slotKept.leave hs.lawful hn, hs.log.same rfl rfl⟩
  released {s n} hs := by
    obtain ⟨hp, hlog⟩ := hs
    refine ⟨lawful_slotKept.released hp, ?_⟩
    obtain ⟨a, h, -⟩ := hp
    refine hlog.slot (n := n) rfl (s.modSlot_slot n _) (by rw [h.slot, slotSeq_of_slot h.slot]; rfl) (fun b q hb _ => ?_)
    rw [h.slot] at hb
    cases hb
    exact h.carries
  hit hs ha hk := ⟨lawful_slotKept.hit hs.1 ha hk, hs.2.same rfl rfl⟩
  answer o r d hs := by
    obtain ⟨hp, hlog⟩ := hs
    refine ⟨lawful_slotKept.answer o r d hp, ?_⟩
    obtain ⟨a, h, -⟩ := hp
    obtain ⟨g, hg⟩ := Option.isSome_iff_exists.1 h.tag
    exact hlog.answer h.slot hg o r d
  marked m hs := ⟨lawful_slotKept.marked m hs.1, hs.2.markRecord _ m⟩
  forward {s n} hs := by
    obtain ⟨hp, hlog⟩ := hs
    refine ⟨lawful_slotKept.forward hp, ?_⟩
    obtain ⟨a, h, -⟩ := hp
    rw [State.forwardSlot_eq h.slot]
    exact hlog.slot (n := n) rfl (slot_eq_update rfl) (slotSeq_of_slot h.slot).symm (fun b q hb _ => by cases hb; rfl)
  mark n m hs := ⟨lawful_slotKept.mark n m hs.lawful, hs.log.markRecord n m⟩
  order {s n} p hs hn := by
    refine ⟨lawful_slotKept.order p hs.lawful hn, ?_⟩
    obtain ⟨a, ha, -⟩ := hn
    refine hs.log.slot (n := n) rfl (s.modSlot_slot n _) (by rw [ha, slotSeq_of_slot ha]; rfl) (fun b q hb _ => ?_)
    rw [ha] at hb
    cases hb
    rfl

/-! ### Events that move other slots -/

theorem LogOk.powerOn (s : State) : LogOk s.powerOn :=
  .ofNone (Nat.zero_le _) List.Pairwise.nil (fun r hr => by cases hr) (fun r hr => by cases hr)
    (fun m => by simp [State.slotSeq, State.slot, State.powerOn, State.reset])

/-- A slot without a record's number becomes FREE. -/
theorem LogOk.free {s : State} {n : SlotNo} (h : LogOk s) (hseq : s.slotSeq n = none) : LogOk (s.setSlot n none) :=
  h.slot (n := n) rfl (s.setSlot_slot n none) hseq.symm (fun a q ha => by cases ha)

theorem LogLawful.deliver {s : State} (h : LogLawful s) : LogLawful s.deliver := by
  refine ⟨h.lawful.deliver, ?_⟩
  unfold State.deliver
  split
  · exact h.log
  · rename_i e rest he
    cases hslot : e.slot with
    | none => exact h.log.same rfl rfl
    | some n =>
      have hmem : n ∈ s.near.responses.filterMap RespEntry.slot := by
        rw [he, List.filterMap_cons_some hslot]
        exact List.mem_cons_self
      obtain ⟨a, ha, hst⟩ := (slotIs_iff s n _).1 ((h.lawful.transit.answerExact n).1 hmem)
      have hseq := h.log.seq_carries ha (by simp [hst, carriesTag])
      have hrest : LogOk { s with near := { s.near with responses := rest, lastResponse := some (responseItem e) } } :=
        h.log.same rfl rfl
      exact hrest.free hseq

theorem LogLawful.issueForward {s : State} (h : LogLawful s) : LogLawful s.issueForward := by
  refine ⟨h.lawful.issueForward, ?_⟩
  cases hq : s.far.forward with
  | nil => simpa [State.issueForward, hq] using h.log
  | cons n rest =>
    have hmem : n ∈ s.far.forward := hq ▸ List.mem_cons_self
    obtain ⟨a, ha, -⟩ := (slotIs_iff s n _).1 ((h.lawful.transit.forwardExact n).1 hmem)
    rw [State.issueForward_eq hq ha]
    exact h.log.slot (n := n) rfl (slot_eq_update rfl) (slotSeq_of_slot ha).symm (fun b q hb _ => by cases hb; rfl)

theorem LogLawful.farToSlot {s : State} (h : LogLawful s) (n : SlotNo) (r : FarResponse) :
    LogLawful (s.farToSlot n r) := by
  refine ⟨h.lawful.farToSlot n r, ?_⟩
  have hraise : LogOk (s.raise (.fs r.tag)) := h.log.same rfl rfl
  unfold State.farToSlot
  cases ha : s.slot n with
  | none => exact hraise
  | some a =>
    cases hst : a.state with
    | issued =>
      obtain ⟨g, hg⟩ := Option.isSome_iff_exists.1 ((h.lawful.slots n a ha).tag.2 (by simp [hst]))
      simp only [hst, State.completeSlot]
      split
      · exact h.log.answer ha hg _ _ _
      · exact h.log.answer ha hg _ _ _
    | orphan => simpa only [hst] using h.log.free (h.log.seq_carries ha (by simp [hst, carriesTag]))
    | held | queued | answering => simpa only [hst] using hraise

theorem LogOk.mapSlots {s t : State} (h : LogOk s) {f : Access → Access} (hslot : ∀ n, t.slot n = (s.slot n).map f)
    (hlog : t.log = s.log) (hseq : ∀ a, (f a).logSeq = a.logSeq) (hst : ∀ a, (f a).state = a.state) : LogOk t := by
  refine h.records (f := id) (by rw [hlog, List.map_id]) (by rw [hlog]) (fun _ => rfl) (fun _ => rfl) (fun m => ?_)
    (fun m b q hb hq => ?_)
  · rw [State.slotSeq, hslot, State.slotSeq]
    cases s.slot m <;> simp [hseq]
  · rw [hslot] at hb
    obtain ⟨a, ha, rfl⟩ := Option.map_eq_some_iff.1 hb
    rw [hseq] at hq
    rw [hst]
    exact (h.named m a q ha hq).1

theorem LogLawful.timeOut {s : State} {n : SlotNo} (h : LogLawful s) (hdue : s.farExpiryDue n = true) :
    LogLawful (s.timeOut n) := by
  refine ⟨h.lawful.timeOut hdue, ?_⟩
  obtain ⟨a, ha, hdue⟩ := (Option.any_eq_true ..).1 hdue
  rw [Bool.and_eq_true, beq_iff_eq] at hdue
  obtain ⟨g, hg⟩ := Option.isSome_iff_exists.1 ((h.lawful.slots n a ha).tag.2 (by simp [hdue.1]))
  rw [State.timeOut_eq ha hg]
  exact h.log.closed .farTimeout .late none (by rw [slotSeq_of_slot ha]; rfl) (slot_eq_update rfl) rfl

theorem LogOk.closeRecord {s : State} {n : SlotNo} {a : Access} (h : LogOk s) (ha : s.slot n = some a)
    (o : RecordOutcome) (r : Reason) (d : Option Data) {x : Option Access} (hx : x.bind Access.logSeq = none) :
    LogOk ((s.closeRecord n o (some r) d).setSlot n x) := by
  rw [State.closeRecord_eq o r d ha]
  exact h.closed o r d (by rw [slotSeq_of_slot ha]; rfl) (slot_eq_update (by simp [State.setSlot])) hx

theorem LogOk.nearResetSlot {s : State} (h : LogOk s) (n : SlotNo) : LogOk (s.nearResetSlot n) := by
  unfold State.nearResetSlot
  cases ha : s.slot n with
  | none => exact h
  | some a =>
    cases hst : a.state with
    | held | queued => simpa only [hst] using h.closeRecord ha _ _ _ rfl
    | issued =>
      simp only [hst, State.modSlot]
      refine h.closeRecord ha .aborted .abort none ?_
      rw [State.closeRecord_eq _ _ _ ha]
      simp [State.slot]
    | answering => simpa only [hst] using h.free (h.seq_carries ha (by simp [hst, carriesTag]))
    | orphan => simpa only [hst] using h

theorem LogOk.nearReset {s : State} (h : LogOk s) : LogOk s.assertNearReset := by
  have hfold : ∀ (l : List SlotNo) (u : State), LogOk u → LogOk (l.foldl State.nearResetSlot u) := by
    intro l
    induction l with
    | nil => exact fun u hu => hu
    | cons n l ih => exact fun u hu => ih _ (hu.nearResetSlot n)
  have hall := hfold allSixteen s h
  unfold State.assertNearReset
  split_ifs
  · exact h
  · generalize allSixteen.foldl State.nearResetSlot s = u at hall
    exact hall.same rfl rfl

theorem LogLawful.farResetStep {acc : State × Nat × Nat} (h : LogLawful acc.1) (n : SlotNo) :
    LogLawful (farResetStep acc n).1 := by
  refine ⟨h.lawful.farResetStep n, ?_⟩
  unfold Machine.farResetStep
  cases ha : acc.1.slot n with
  | none => exact h.log
  | some a =>
    cases hst : a.state with
    | issued =>
      obtain ⟨g, hg⟩ := Option.isSome_iff_exists.1 ((h.lawful.slots n a ha).tag.2 (by simp [hst]))
      simp only [hst]
      rw [State.abortIssued_eq ha hg]
      exact h.log.closed .aborted .abort none (by rw [slotSeq_of_slot ha]; rfl) (slot_eq_update rfl) rfl
    | orphan => simpa only [hst] using h.log.free (h.log.seq_carries ha (by simp [hst, carriesTag]))
    | held | queued | answering => simpa only [hst] using h.log

/-! ### Verbs -/

theorem LogOk.cmdLn {s : State} (h : LogOk s) (o : Operands) : LogOk (cmdLn o s).1 := by
  unfold Machine.cmdLn
  split
  · exact h
  · split
    · exact h
    · rename_i r rest hrec
      split_ifs with hopen
      · exact h
      · exact h.dropOldest (by simp [Log.oldestClosed, hrec, hopen])

theorem LogOk.cmdLc {s : State} (h : LogOk s) (o : Operands) : LogOk (cmdLc o s).1 := by
  unfold Machine.cmdLc
  split
  · exact h
  · exact h.removed rfl rfl List.filter_sublist (fun r hr hro => List.mem_filter.2 ⟨hr, hro⟩)

theorem LogOk.cmdLm {s : State} (h : LogOk s) (o : Operands) : LogOk (cmdLm o s).1 := by
  unfold Machine.cmdLm
  split
  · exact h
  · exact h
  · exact h.removed rfl rfl (List.Sublist.refl _) (fun _ hr _ => hr)

/-- No slot names a record. -/
def NoSeq (s : State) : Prop := ∀ n, s.slotSeq n = none

theorem NoSeq.update {s t : State} {n : SlotNo} {x : Option Access} (h : NoSeq s)
    (hslot : t.slot = Function.update s.slot n x) (hx : x.bind Access.logSeq = none) : NoSeq t := by
  intro m
  rw [slotSeq_update hslot]
  split_ifs
  · exact hx
  · exact h m

theorem NoSeq.map {s t : State} {n : SlotNo} {f : Access → Access} (h : NoSeq s)
    (hslot : t.slot = Function.update s.slot n ((s.slot n).map f)) (hf : ∀ a, (f a).logSeq = a.logSeq) : NoSeq t := by
  refine h.update hslot ?_
  have := h n
  rw [State.slotSeq] at this
  cases hs : s.slot n with
  | none => rfl
  | some a => simpa [hs, hf] using this

/-- Slots that are let go from the hold queue take no number. -/
theorem noSeq_holdKept : HoldKept NoSeq (fun s n => NoSeq s ∧ ∃ a, s.slot n = some a) where
  same hs hst n := by
    rw [State.slotSeq, hst.transit.slot]
    exact hs n
  slot hs := hs.2
  leave hs hn := by
    obtain ⟨a, ha, -⟩ := hn
    exact ⟨hs, a, ha⟩
  released {s n} hs := by
    obtain ⟨hs, a, ha⟩ := hs
    exact ⟨hs.map (s.modSlot_slot n _) (fun _ => rfl), a.released, by simp [ha]⟩
  hit hs _ _ := hs
  answer {s n} o r d hs := by
    obtain ⟨hs, a, ha⟩ := hs
    rw [State.closeRecord_none o (some r) d (hs n)]
    unfold State.answerSlot
    rw [ha]
    have hset : NoSeq (s.setSlot n (some { a.released with state := .answering, farTimer := none })) := by
      refine hs.update (s.setSlot_slot n _) ?_
      have := hs n
      rwa [slotSeq_of_slot ha] at this
    dsimp only
    split <;> exact hset
  marked m hs := by
    obtain ⟨hs, a, ha⟩ := hs
    exact ⟨fun n => by simpa using hs n, a, by simpa using ha⟩
  forward {s n} hs := hs.1.map (s.modSlot_slot n _) (fun _ => rfl)
  mark n m hs k := by simpa using hs k
  order {s n} p hs _ := hs.map (s.modSlot_slot n _) (fun _ => rfl)

theorem State.clearRecords_noSeq (s : State) : NoSeq s.clearRecords := by
  intro n
  rw [State.slotSeq, State.slot_clearRecords]
  cases s.slot n <;> rfl

theorem LogOk.cmdCl {s : State} (h : LogOk s) (o : Operands) : LogOk (cmdCl o s).1 := by
  unfold Machine.cmdCl
  split
  · exact h
  · have hnone := noSeq_holdKept.releaseAll s.clearRecords_noSeq
    refine .ofNone ?_ ?_ ?_ ?_ (fun n => ?_)
    · simp [State.wipeTables, Log.emptied]
    · simp [State.wipeTables, Log.emptied]
    · simp [State.wipeTables, Log.emptied]
    · simp [State.wipeTables, Log.emptied]
    · simpa using hnone n

theorem verbRule_log {v : Verb} (hv : leavesTransit v = true) (h1 : v ≠ .ln) (h2 : v ≠ .lc) (h3 : v ≠ .lm)
    (src : Source) (o : Operands) (s : State) : (verbRule v src o s).1.log = s.log := by
  cases v with
  | ws => simp only [verbRule, cmdWs]; split <;> [rfl; (split_ifs <;> rfl)]
  | wr => simp only [verbRule, cmdWr]; split <;> [rfl; (split <;> rfl)]
  | wa => simp only [verbRule, cmdWa]; split <;> [rfl; (split <;> rfl)]
  | wd => simp only [verbRule, cmdWd]; split <;> [rfl; (split_ifs <;> rfl)]
  | wx => simp only [verbRule, cmdWx]; split <;> rfl
  | ss => simp only [verbRule, cmdSs]; split <;> rfl
  | sx => simp only [verbRule, cmdSx]; split <;> rfl
  | ln => exact absurd rfl h1
  | lc => exact absurd rfl h2
  | lm => exact absurd rfl h3
  | _ => cases hv

theorem LogLawful.verb {s : State} (h : LogLawful s) {v : Verb} (hv : leavesCore v = false) (src : Source)
    (o : Operands) : LogLawful (verbRule v src o s).1 := by
  cases ht : leavesTransit v with
  | true =>
    have hsame := verbRule_sameTransit ht src o s
    refine ⟨h.lawful.same hsame, ?_⟩
    by_cases hln : v = .ln
    · exact hln ▸ h.log.cmdLn o
    · by_cases hlc : v = .lc
      · exact hlc ▸ h.log.cmdLc o
      · by_cases hlm : v = .lm
        · exact hlm ▸ h.log.cmdLm o
        · exact h.log.same hsame.slot (verbRule_log ht hln hlc hlm src o s)
  | false =>
    obtain rfl | rfl | rfl | rfl | rfl | rfl := verb_cases hv ht
    · simp only [verbRule, cmdFr]
      split
      · exact h
      · exact farReset_kept logLawful_slotKept.same (fun n hs => LogLawful.farResetStep hs n) h
    · exact logLawful_slotKept.cmdHr o h
    · exact logLawful_slotKept.cmdHa o h
    · exact logLawful_slotKept.cmdHf o h
    · exact logLawful_slotKept.cmdRa o h
    · exact ⟨h.lawful.cmdCl o, h.log.cmdCl o⟩

theorem logLawful_kept : Kept LogLawful where
  core := logLawful_slotKept.same
  powerOn {s} _ := ⟨.powerOn s, .powerOn s⟩
  accept req hs hfree hlive := logLawful_slotKept.accept req hs hfree hlive
  deliver hs := hs.deliver
  issue hs := hs.issueForward
  far n r hs := hs.farToSlot n r
  tick {s} hs := ⟨hs.lawful.tick, hs.log.mapSlots (fun n => s.slot_tickAll n) (by simp) (fun _ => rfl) (fun _ => rfl)⟩
  timeOut hs hdue := hs.timeOut hdue
  expire hs hdue := logLawful_slotKept.expire hs hdue
  nearReset hs := ⟨hs.lawful.nearReset, hs.log.nearReset⟩
  trigger hs := ⟨lawful_kept.trigger hs.lawful, hs.log.same (funext fun n => by simp) (by simp)⟩
  verb v src o hv hs := hs.verb hv src o
  wipe hs := ⟨lawful_kept.wipe hs.lawful, hs.log.same rfl rfl⟩

/-- Settles O56: `LogLawful` is kept by each operation, so by each step. -/
theorem stepKeepsLog : Obligations.StepKeepsLog := by
  unfold Obligations.StepKeepsLog
  intro s t hslots htransit hlog hstep
  exact (logLawful_kept.step ⟨⟨hslots, htransit⟩, hlog⟩ hstep).log

end Sys2Proof.Machine
end

section
/-! PROOFS. The operands of a line: what each value reads, and for each verb's reader the operands that it takes. -/

namespace Sys2Proof.Machine

/-! ### Numbers -/

theorem hexVal_lt {c : Char} {d : Nat} (h : hexVal c = some d) : d < 16 := by
  unfold hexVal at h
  dsimp only at h
  split_ifs at h
  · cases h
    omega
  · cases h
    omega

theorem hexNumFrom_lt {t : Text} {acc k n : Nat} (hacc : acc < 16 ^ k) (h : hexNumFrom acc t = some n) :
    n < 16 ^ (k + t.length) := by
  induction t generalizing acc k with
  | nil =>
    cases h
    exact hacc
  | cons c cs ih =>
    unfold hexNumFrom at h
    split at h
    · rename_i d hd
      have hlt := hexVal_lt hd
      have hstep : acc * 16 + d < 16 ^ (k + 1) := by
        rw [pow_succ]
        omega
      have := ih hstep h
      rwa [List.length_cons, Nat.add_comm cs.length 1, ← Nat.add_assoc]
    · cases h

/-- A number has no more digits than it is written in. -/
theorem hexNum_lt {t : Text} {n : Nat} (h : hexNum t = some n) : n < 16 ^ t.length := by
  unfold hexNum at h
  split at h
  · cases h
  · simpa using hexNumFrom_lt (k := 0) (by decide) h

theorem hexNum_ne_nil {t : Text} {n : Nat} (h : hexNum t = some n) : t ≠ [] := by
  rintro rfl
  cases h

theorem hexBelow_eq_some_iff (b : Nat) (t : Text) (n : Nat) : hexBelow b t = some n ↔ hexNum t = some n ∧ n < b := by
  simp [hexBelow, Option.filter_eq_some_iff]

theorem hexBelow_map_iff {w : Nat} (t : Text) (v : BitVec w) :
    (hexBelow (2 ^ w) t).map (BitVec.ofNat w) = some v ↔ hexNum t = some v.toNat := by
  rw [Option.map_eq_some_iff]
  constructor
  · rintro ⟨n, hn, rfl⟩
    obtain ⟨hn, hlt⟩ := (hexBelow_eq_some_iff _ t n).1 hn
    rwa [BitVec.toNat_ofNat, Nat.mod_eq_of_lt hlt]
  · intro h
    exact ⟨v.toNat, (hexBelow_eq_some_iff _ t _).2 ⟨h, v.isLt⟩, by simp⟩

theorem hexDigits_eq_some_iff (k : Nat) (t : Text) (n : Nat) :
    hexDigits k t = some n ↔ t.length ≤ k ∧ hexNum t = some n := by
  unfold hexDigits
  split_ifs with h <;> simp [h]

/-- A number of at most `k` digits is a word of `4 * k` bits. -/
theorem hexDigits_map_iff {k w : Nat} (hw : 16 ^ k = 2 ^ w) (t : Text) (v : BitVec w) :
    (hexDigits k t).map (BitVec.ofNat w) = some v ↔ t.length ≤ k ∧ hexNum t = some v.toNat := by
  rw [Option.map_eq_some_iff]
  constructor
  · rintro ⟨n, hn, rfl⟩
    obtain ⟨hk, hn⟩ := (hexDigits_eq_some_iff k t n).1 hn
    have hlt : n < 2 ^ w := by
      rw [← hw]
      exact (hexNum_lt hn).trans_le (Nat.pow_le_pow_right (by decide) hk)
    rw [BitVec.toNat_ofNat, Nat.mod_eq_of_lt hlt]
    exact ⟨hk, hn⟩
  · intro h
    exact ⟨v.toNat, (hexDigits_eq_some_iff k t _).2 h, by simp⟩

/-- One digit below `2 ^ w`. -/
theorem oneDigit_map_iff {w : Nat} (t : Text) (v : BitVec w) :
    (oneDigit (2 ^ w) t).map (fun n => BitVec.ofNat w n.val) = some v ↔ t.length = 1 ∧ hexNum t = some v.toNat := by
  rw [Option.map_eq_some_iff]
  constructor
  · rintro ⟨n, hn, rfl⟩
    rw [BitVec.toNat_ofNat, Nat.mod_eq_of_lt n.isLt]
    exact (oneDigit_eq_some_iff t n).1 hn
  · intro h
    exact ⟨⟨v.toNat, v.isLt⟩, (oneDigit_eq_some_iff t _).2 h, by simp⟩

theorem flagValue_eq_some_iff (t : Text) (b : Bool) :
    flagValue t = some b ↔ hexNum t = some (if b then 1 else 0) := by
  unfold flagValue
  simp only [Option.map_eq_some_iff, hexBelow_eq_some_iff]
  constructor
  · rintro ⟨n, ⟨hn, hlt⟩, rfl⟩
    interval_cases n <;> exact hn
  · intro h
    refine ⟨if b then 1 else 0, ⟨h, ?_⟩, ?_⟩ <;> cases b <;> decide

/-- A flag written as one digit, 0 or 1. -/
theorem oneDigit_flag_iff (t : Text) (b : Bool) :
    (oneDigit 2 t).map (fun n => n.val == 1) = some b ↔ t.length = 1 ∧ hexNum t = some (if b then 1 else 0) := by
  rw [Option.map_eq_some_iff]
  constructor
  · rintro ⟨n, hn, rfl⟩
    have h := (oneDigit_eq_some_iff t n).1 hn
    fin_cases n <;> exact h
  · intro h
    refine ⟨if b then 1 else 0, (oneDigit_eq_some_iff t _).2 ?_, ?_⟩ <;> cases b <;> [exact h; exact h; decide; decide]

theorem sizeOfNat_eq_some_iff (n : Nat) (z : Size) : sizeOfNat n = some z ↔ n = sizeBytes z := by
  constructor
  · intro h
    unfold sizeOfNat at h
    split at h <;> cases h <;> rfl
  · rintro rfl
    cases z <;> rfl

theorem hexNum_sizeOfNat_iff (t : Text) (z : Size) :
    (hexNum t).bind sizeOfNat = some z ↔ hexNum t = some (sizeBytes z) := by
  simp [Option.bind_eq_some_iff, sizeOfNat_eq_some_iff]

theorem readSizeDigit_eq_some_iff (t : Text) (z : Size) :
    readSizeDigit t = some z ↔ t.length = 1 ∧ hexNum t = some (sizeBytes z) := by
  simp only [readSizeDigit, Option.bind_eq_some_iff, sizeOfNat_eq_some_iff, hexDigits_eq_some_iff, exists_eq_right]
  refine and_congr_left fun h => ?_
  have := List.length_pos_iff.2 (hexNum_ne_nil h)
  omega

theorem two_pow_size_le (z : Size) : 2 ^ (8 * sizeBytes z) ≤ 2 ^ 64 := by cases z <;> decide

theorem readValue_eq_some_iff (z : Size) (t : Text) (d : Data) :
    readValue z t = some d ↔ hexNum t = some d.toNat ∧ d.toNat < 2 ^ (8 * sizeBytes z) := by
  simp only [readValue, Option.map_eq_some_iff, hexBelow_eq_some_iff]
  constructor
  · rintro ⟨n, ⟨hn, hlt⟩, rfl⟩
    rw [BitVec.toNat_ofNat, Nat.mod_eq_of_lt (hlt.trans_le (two_pow_size_le z))]
    exact ⟨hn, hlt⟩
  · intro h
    exact ⟨d.toNat, h, by simp⟩

theorem aligned_iff (a : Word) (z : Size) : aligned a z = true ↔ a.toNat % sizeBytes z = 0 := by simp [aligned]

/-! ### Letters -/

theorem readClasses_eq_some_iff (t : Text) (c : ClassSet) : readClasses t = some c ↔ t ≠ [] ∧ t.Nodup ∧
    (∀ x ∈ t, x = 'F' ∨ x = 'L' ∨ x = 'S') ∧ (c.fetch = true ↔ 'F' ∈ t) ∧ (c.load = true ↔ 'L' ∈ t) ∧
    (c.store = true ↔ 'S' ∈ t) := by
  obtain ⟨f, l, s⟩ := c
  have hflag : ∀ (b : Bool) (x : Char), t.contains x = b ↔ (b = true ↔ x ∈ t) := fun b x => by
    cases b <;> simp
  have hcond : (!t.isEmpty && t.all (fun c => c == 'F' || c == 'L' || c == 'S') && decide t.Nodup) = true ↔
      t ≠ [] ∧ t.Nodup ∧ ∀ x ∈ t, x = 'F' ∨ x = 'L' ∨ x = 'S' := by
    simp only [Bool.and_eq_true, Bool.not_eq_true', List.isEmpty_eq_false_iff, List.all_eq_true, Bool.or_eq_true,
      beq_iff_eq, decide_eq_true_eq, or_assoc, ne_eq]
    tauto
  unfold readClasses
  by_cases h : (!t.isEmpty && t.all (fun c => c == 'F' || c == 'L' || c == 'S') && decide t.Nodup) = true
  · obtain ⟨h1, h2, h3⟩ := hcond.1 h
    rw [if_pos h, Option.some.injEq, ClassSet.mk.injEq, hflag, hflag, hflag]
    exact ⟨fun hc => ⟨h1, h2, h3, hc⟩, fun ⟨_, _, _, hc⟩ => hc⟩
  · rw [if_neg h]
    exact ⟨fun hc => (by cases hc), fun ⟨h1, h2, h3, _⟩ => absurd (hcond.2 ⟨h1, h2, h3⟩) h⟩

theorem readAction_eq_some_iff (t : Text) (a : Action) : readAction t = some a ↔
    (t = ['P'] ∧ a = .pass) ∨ (t = ['N'] ∧ a = .note) ∨ (t = ['S'] ∧ a = .subst) ∨ (t = ['H'] ∧ a = .hold) ∨
      (t = ['F'] ∧ a = .freeze) := by
  unfold readAction
  split <;> simp_all [eq_comm]

theorem readPolicy_eq_some_iff (t : Text) (p : Policy) :
    readPolicy t = some p ↔ (t = ['R'] ∧ p = .release) ∨ (t = ['F'] ∧ p = .fail) := by
  unfold readPolicy
  split <;> simp_all [eq_comm]

theorem readParity_eq_some_iff (t : Text) (p : Parity) :
    readParity t = some p ↔ (t = ['N'] ∧ p = .none) ∨ (t = ['E'] ∧ p = .even) ∨ (t = ['O'] ∧ p = .odd) := by
  unfold readParity
  split <;> simp_all [eq_comm]

theorem readArmSource_eq_some_iff (t : Text) (a : ArmSource) : readArmSource t = some a ↔
    (t = ['T'] ∧ a = .trigger) ∨ (t.length = 1 ∧ ∃ m : EntryNo, hexNum t = some m.val ∧ a = .entry m) := by
  by_cases ht : t = ['T']
  · subst ht
    have hT : hexNum ['T'] = none := by decide
    simp [readArmSource, hT, eq_comm]
  · have hread : readArmSource t = (oneDigit 16 t).map ArmSource.entry := by
      unfold readArmSource
      split <;> simp_all
    simp only [hread, Option.map_eq_some_iff, oneDigit_eq_some_iff, ht, false_and, false_or]
    constructor
    · rintro ⟨m, ⟨h1, h2⟩, rfl⟩
      exact ⟨h1, m, h2, rfl⟩
    · rintro ⟨h1, m, h2, rfl⟩
      exact ⟨m, ⟨h1, h2⟩, rfl⟩

/-! ### Keyword operands -/

section
variable {o : Operands} {k : Char} {α : Type}

theorem says_congr {p q : Prop} {f g : Text → Prop} (hp : p ↔ q) (hf : ∀ t, f t ↔ g t) :
    Says o k p f ↔ Says o k q g := by
  unfold Says
  split
  · exact hp
  · exact hf _

theorem keywordOr_eq_some_iff {dflt a : α} {f : Text → Option α} :
    keywordOr o k dflt f = some a ↔ Says o k (a = dflt) (fun t => f t = some a) := by
  unfold keywordOr Says
  cases keyword o k <;> simp [eq_comm]

theorem keyword_bind_eq_some_iff {a : α} {f : Text → Option α} :
    (keyword o k).bind f = some a ↔ Says o k False (fun t => f t = some a) := by
  unfold Says
  cases keyword o k <;> simp

/-- A required number of `w` bits. -/
theorem keyword_number_iff {w n : Nat} : (keyword o k).bind (hexBelow (2 ^ w)) = some n ↔
    ∃ v : BitVec w, n = v.toNat ∧ Says o k False (fun t => hexNum t = some v.toNat) := by
  rw [keyword_bind_eq_some_iff]
  unfold Says
  cases keyword o k with
  | none => simp
  | some t =>
    simp only [hexBelow_eq_some_iff]
    constructor
    · rintro ⟨h, hlt⟩
      exact ⟨BitVec.ofNat w n, by simp [Nat.mod_eq_of_lt hlt], by simpa [Nat.mod_eq_of_lt hlt] using h⟩
    · rintro ⟨v, rfl, h⟩
      exact ⟨h, v.isLt⟩

/-- A number of `w` bits with a default. -/
theorem keywordOr_number_iff {w n : Nat} (d : BitVec w) : keywordOr o k d.toNat (hexBelow (2 ^ w)) = some n ↔
    ∃ v : BitVec w, n = v.toNat ∧ Says o k (v = d) (fun t => hexNum t = some v.toNat) := by
  rw [keywordOr_eq_some_iff]
  unfold Says
  cases keyword o k with
  | none => simp [eq_comm]
  | some t =>
    simp only [hexBelow_eq_some_iff]
    constructor
    · rintro ⟨h, hlt⟩
      exact ⟨BitVec.ofNat w n, by simp [Nat.mod_eq_of_lt hlt], by simpa [Nat.mod_eq_of_lt hlt] using h⟩
    · rintro ⟨v, rfl, h⟩
      exact ⟨h, v.isLt⟩

end

/-- A reader that begins with the one positional operand of the line. -/
theorem onePositional_bind_eq_some_iff {α : Type} (o : Operands) (f : Text → Option α) (a : α) :
    (do
      let p ← match o.pos with | [p] => some p | _ => none
      f p) = some a ↔ ∃ p, o.pos = [p] ∧ f p = some a := by
  rcases o.pos with _ | ⟨p, _ | ⟨q, l⟩⟩ <;> simp

theorem onlyKeywords_iff (o : Operands) (ks : List Char) : onlyKeywords o ks = true ↔ ∀ x ∈ o.kws, x.1 ∈ ks := by
  simp [onlyKeywords]

/-! ### `MA`, `MR` and `MW` (R179, R180) -/

theorem readPlace_eq_some_iff (m : Mem) (o : Operands) (a : Word) (z : Size) :
    readPlace m o = some (a, z) ↔ PlaceSays o m a z := by
  have haddr : ∀ b, keywordOr o 'A' m.cursorAddr (fun t => (hexDigits 8 t).map (fun n => BitVec.ofNat 32 n)) = some b ↔
      Says o 'A' (b = m.cursorAddr) (fun t => t.length ≤ 8 ∧ hexNum t = some b.toNat) := fun b => by
    rw [keywordOr_eq_some_iff]
    exact says_congr Iff.rfl fun t => hexDigits_map_iff (by decide) t b
  have hsize : ∀ x, keywordOr o 'Z' m.cursorSize readSizeDigit = some x ↔
      Says o 'Z' (x = m.cursorSize) (fun t => t.length = 1 ∧ hexNum t = some (sizeBytes x)) := fun x => by
    rw [keywordOr_eq_some_iff]
    exact says_congr Iff.rfl fun t => readSizeDigit_eq_some_iff t x
  unfold readPlace
  simp only [Option.bind_eq_bind, Option.bind_eq_some_iff]
  constructor
  · rintro ⟨b, hb, x, hx, h⟩
    split_ifs at h with hal
    cases h
    exact ⟨(haddr a).1 hb, (hsize z).1 hx, (aligned_iff a z).1 hal⟩
  · rintro ⟨ha, hz, hal⟩
    exact ⟨a, (haddr a).2 ha, z, (hsize z).2 hz, if_pos ((aligned_iff a z).2 hal)⟩

theorem readMa_eq_some_iff (m : Mem) (o : Operands) (a : Word) (z : Size) :
    readMa m o = some (a, z) ↔ MaSays o m a z := by
  unfold readMa
  by_cases h : (o.pos.isEmpty && onlyKeywords o ['A', 'Z']) = true
  · rw [if_pos h, readPlace_eq_some_iff]
    rw [Bool.and_eq_true, List.isEmpty_iff, onlyKeywords_iff] at h
    exact ⟨fun hp => ⟨h.1, h.2, hp⟩, fun hp => hp.place⟩
  · rw [if_neg h]
    refine ⟨fun hc => (by cases hc), fun hp => absurd ?_ h⟩
    rw [Bool.and_eq_true, List.isEmpty_iff, onlyKeywords_iff]
    exact ⟨hp.none, hp.letters⟩

theorem readMw_eq_some_iff (m : Mem) (o : Operands) (a : Word) (z : Size) (d : Data) :
    readMw m o = some (a, z, d) ↔ MwSays o m a z d := by
  have hvalue : ∀ z : Size, (keyword o 'V').bind (readValue z) = some d ↔
      Says o 'V' False (fun t => hexNum t = some d.toNat) ∧ d.toNat < 2 ^ (8 * sizeBytes z) := fun z => by
    rw [keyword_bind_eq_some_iff]
    unfold Says
    cases keyword o 'V' with
    | none => simp
    | some t => exact readValue_eq_some_iff z t d
  have hgate : (!o.pos.isEmpty || !onlyKeywords o ['A', 'Z', 'V']) = true ↔
      ¬ (o.pos = [] ∧ ∀ x ∈ o.kws, x.1 ∈ ['A', 'Z', 'V']) := by
    rw [← onlyKeywords_iff, ← List.isEmpty_iff, Bool.or_eq_true, Bool.not_eq_true', Bool.not_eq_true']
    cases o.pos.isEmpty <;> cases onlyKeywords o ['A', 'Z', 'V'] <;> decide
  unfold readMw
  by_cases h : o.pos = [] ∧ ∀ x ∈ o.kws, x.1 ∈ ['A', 'Z', 'V']
  · rw [if_neg (fun hc => hgate.1 hc h)]
    constructor
    · intro hread
      obtain ⟨⟨b, x⟩, hplace, hread⟩ := Option.bind_eq_some_iff.1 hread
      obtain ⟨v, hv, heq⟩ := Option.bind_eq_some_iff.1 hread
      cases heq
      obtain ⟨hv, hfits⟩ := (hvalue _).1 hv
      exact ⟨h.1, h.2, (readPlace_eq_some_iff m o _ _).1 hplace, hv, hfits⟩
    · intro hp
      refine Option.bind_eq_some_iff.2 ⟨(a, z), (readPlace_eq_some_iff m o a z).2 hp.place, ?_⟩
      exact Option.bind_eq_some_iff.2 ⟨d, (hvalue z).2 ⟨hp.value, hp.fits⟩, rfl⟩
  · rw [if_pos (hgate.2 h)]
    exact ⟨fun hc => (by cases hc), fun hp => absurd ⟨hp.none, hp.letters⟩ h⟩

/-! ### `SS` (R97) -/

theorem readSs_eq_some_iff (o : Operands) (n : RecordNo) (r : SubstRecord) :
    readSs o = some (n, r) ↔ SsSays o n r := by
  have hgate : (!onlyKeywords o ['A', 'Z', 'V']) = true ↔ ¬ ∀ x ∈ o.kws, x.1 ∈ ['A', 'Z', 'V'] := by
    rw [← onlyKeywords_iff, Bool.not_eq_true', Bool.not_eq_true]
  have hsize : ∀ z : Size, ((keyword o 'Z').bind hexNum).bind sizeOfNat = some z ↔
      Says o 'Z' False (fun t => hexNum t = some (sizeBytes z)) := fun z => by
    rw [Option.bind_assoc, keyword_bind_eq_some_iff]
    exact says_congr Iff.rfl fun t => hexNum_sizeOfNat_iff t z
  have hvalue : ∀ (z : Size) (d : Data), (keyword o 'V').bind (readValue z) = some d ↔
      Says o 'V' False (fun t => hexNum t = some d.toNat) ∧ d.toNat < 2 ^ (8 * sizeBytes z) := fun z d => by
    rw [keyword_bind_eq_some_iff]
    unfold Says
    cases keyword o 'V' with
    | none => simp
    | some t => exact readValue_eq_some_iff z t d
  unfold readSs
  refine (onePositional_bind_eq_some_iff o _ _).trans ⟨?_, ?_⟩
  · rintro ⟨p, hpos, h⟩
    obtain ⟨n', hn, h⟩ := Option.bind_eq_some_iff.1 h
    split_ifs at h with hk
    · cases h
    · obtain ⟨b, hb, h⟩ := Option.bind_eq_some_iff.1 h
      obtain ⟨z, hz, h⟩ := Option.bind_eq_some_iff.1 h
      obtain ⟨v, hv, h⟩ := Option.bind_eq_some_iff.1 h
      obtain ⟨a, rfl, ha⟩ := keyword_number_iff.1 hb
      obtain ⟨hv, hfits⟩ := (hvalue z v).1 hv
      rw [BitVec.ofNat_toNat, BitVec.setWidth_eq] at h
      split_ifs at h with hal
      cases h
      obtain ⟨hlen, hnum⟩ := (oneDigit_eq_some_iff p n).1 hn
      exact ⟨⟨p, hpos, hlen, hnum⟩, not_not.1 fun hc => hk (hgate.2 hc), ha, (hsize z).1 hz, hv, hfits,
        (aligned_iff a z).1 hal, rfl, rfl⟩
  · rintro ⟨⟨p, hpos, hlen, hnum⟩, hletters, ha, hz, hv, hfits, hal, hvalid, huses⟩
    obtain ⟨valid, a, z, v, uses⟩ := r
    dsimp only at hvalid huses
    subst hvalid huses
    refine ⟨p, hpos, Option.bind_eq_some_iff.2 ⟨n, (oneDigit_eq_some_iff p n).2 ⟨hlen, hnum⟩, ?_⟩⟩
    rw [if_neg (fun hc => hgate.1 hc hletters)]
    refine Option.bind_eq_some_iff.2 ⟨a.toNat, keyword_number_iff.2 ⟨a, rfl, ha⟩, ?_⟩
    refine Option.bind_eq_some_iff.2 ⟨z, (hsize z).2 hz, ?_⟩
    refine Option.bind_eq_some_iff.2 ⟨v, (hvalue z v).2 ⟨hv, hfits⟩, ?_⟩
    rw [BitVec.ofNat_toNat, BitVec.setWidth_eq, if_pos ((aligned_iff a z).2 hal)]

/-! ### `SP` (R142) -/

theorem readSp_eq_some_iff (p : Params) (o : Operands) (q : Params) : readSp p o = some q ↔ SpSays o p q := by
  have hgate : (!o.pos.isEmpty || !onlyKeywords o ['H', 'E', 'F', 'P', 'Q', 'D', 'Y']) = true ↔
      ¬ (o.pos = [] ∧ ∀ x ∈ o.kws, x.1 ∈ ['H', 'E', 'F', 'P', 'Q', 'D', 'Y']) := by
    rw [← onlyKeywords_iff, ← List.isEmpty_iff]
    cases o.pos.isEmpty <;> cases onlyKeywords o ['H', 'E', 'F', 'P', 'Q', 'D', 'Y'] <;> decide
  have hcount : ∀ (k : Char) (d v : Count),
      keywordOr o k d (fun t => (hexDigits 4 t).map (fun n => BitVec.ofNat 16 n)) = some v ↔
        Says o k (v = d) (fun t => t.length ≤ 4 ∧ hexNum t = some v.toNat) := fun k d v => by
    rw [keywordOr_eq_some_iff]
    exact says_congr Iff.rfl fun t => hexDigits_map_iff (by decide) t v
  have hpolicy : ∀ v, keywordOr o 'E' p.policy readPolicy = some v ↔
      Says o 'E' (v = p.policy) (fun t => (t = ['R'] ∧ v = .release) ∨ (t = ['F'] ∧ v = .fail)) := fun v => by
    rw [keywordOr_eq_some_iff]
    exact says_congr Iff.rfl fun t => readPolicy_eq_some_iff t v
  have hprescale : ∀ v, keywordOr o 'P' p.prescale (fun t => (oneDigit 8 t).map (fun n => BitVec.ofNat 3 n.val)) = some v ↔
      Says o 'P' (v = p.prescale) (fun t => t.length = 1 ∧ hexNum t = some v.toNat) := fun v => by
    rw [keywordOr_eq_some_iff]
    exact says_congr Iff.rfl fun t => oneDigit_map_iff t v
  have hquiet : ∀ v, keywordOr o 'Q' p.quiet (fun t => (oneDigit 2 t).map (fun n => n.val == 1)) = some v ↔
      Says o 'Q' (v = p.quiet) (fun t => t.length = 1 ∧ hexNum t = some (if v then 1 else 0)) := fun v => by
    rw [keywordOr_eq_some_iff]
    exact says_congr Iff.rfl fun t => oneDigit_flag_iff t v
  have hbaud : ∀ v, keywordOr o 'D' p.baud (fun t => (oneDigit 4 t).map (fun n => BitVec.ofNat 2 n.val)) = some v ↔
      Says o 'D' (v = p.baud) (fun t => t.length = 1 ∧ hexNum t = some v.toNat) := fun v => by
    rw [keywordOr_eq_some_iff]
    exact says_congr Iff.rfl fun t => oneDigit_map_iff t v
  have hparity : ∀ v, keywordOr o 'Y' p.parity readParity = some v ↔ Says o 'Y' (v = p.parity)
      (fun t => (t = ['N'] ∧ v = .none) ∨ (t = ['E'] ∧ v = .even) ∨ (t = ['O'] ∧ v = .odd)) := fun v => by
    rw [keywordOr_eq_some_iff]
    exact says_congr Iff.rfl fun t => readParity_eq_some_iff t v
  unfold readSp
  by_cases hk : o.pos = [] ∧ ∀ x ∈ o.kws, x.1 ∈ ['H', 'E', 'F', 'P', 'Q', 'D', 'Y']
  · rw [if_neg (fun hc => hgate.1 hc hk)]
    constructor
    · intro h
      obtain ⟨hold, hh, h⟩ := Option.bind_eq_some_iff.1 h
      obtain ⟨policy, he, h⟩ := Option.bind_eq_some_iff.1 h
      obtain ⟨far, hf, h⟩ := Option.bind_eq_some_iff.1 h
      obtain ⟨prescale, hp, h⟩ := Option.bind_eq_some_iff.1 h
      obtain ⟨quiet, hq, h⟩ := Option.bind_eq_some_iff.1 h
      obtain ⟨baud, hd, h⟩ := Option.bind_eq_some_iff.1 h
      obtain ⟨parity, hy, h⟩ := Option.bind_eq_some_iff.1 h
      cases h
      exact ⟨hk.1, hk.2, (hcount _ _ _).1 hh, (hpolicy _).1 he, (hcount _ _ _).1 hf, (hprescale _).1 hp, (hquiet _).1 hq,
        (hbaud _).1 hd, (hparity _).1 hy⟩
    · intro h
      refine Option.bind_eq_some_iff.2 ⟨q.holdLimit, (hcount _ _ _).2 h.holdLimit, ?_⟩
      refine Option.bind_eq_some_iff.2 ⟨q.policy, (hpolicy _).2 h.policy, ?_⟩
      refine Option.bind_eq_some_iff.2 ⟨q.farTimeout, (hcount _ _ _).2 h.farTimeout, ?_⟩
      refine Option.bind_eq_some_iff.2 ⟨q.prescale, (hprescale _).2 h.prescale, ?_⟩
      refine Option.bind_eq_some_iff.2 ⟨q.quiet, (hquiet _).2 h.quiet, ?_⟩
      refine Option.bind_eq_some_iff.2 ⟨q.baud, (hbaud _).2 h.baud, ?_⟩
      exact Option.bind_eq_some_iff.2 ⟨q.parity, (hparity _).2 h.parity, rfl⟩
  · rw [if_pos (hgate.2 hk)]
    exact ⟨fun hc => (by cases hc), fun h => absurd ⟨h.none, h.letters⟩ hk⟩

/-! ### `WS` (R46 to R48) -/

/-- The data condition of `V=` and `M=` (Table 2-5). -/
theorem readCond_iff (o : Operands) (c : Option DataCond) :
    (∃ v m, keywordOr o 'V' none (fun t => (hexBelow (2 ^ 64) t).map (fun v => some (BitVec.ofNat 64 v))) = some v ∧
      keywordOr o 'M' none (fun t => (hexBelow (2 ^ 64) t).map (fun v => some (BitVec.ofNat 64 v))) = some m ∧
      condOf v m = c) ↔
    (keyword o 'V' = none → keyword o 'M' = none → c = none) ∧
    (¬ (keyword o 'V' = none ∧ keyword o 'M' = none) → ∃ d, c = some d ∧
      Says o 'V' (d.value = 0) (fun t => hexNum t = some d.value.toNat) ∧
      Says o 'M' (d.mask = BitVec.allOnes 64) (fun t => hexNum t = some d.mask.toNat)) := by
  have hread : ∀ (t : Text) (x : Option Data),
      (hexBelow (2 ^ 64) t).map (fun v => some (BitVec.ofNat 64 v)) = some x ↔ ∃ v : Data, x = some v ∧
        hexNum t = some v.toNat := fun t x => by
    rw [show (hexBelow (2 ^ 64) t).map (fun v => some (BitVec.ofNat 64 v)) =
      ((hexBelow (2 ^ 64) t).map (BitVec.ofNat 64)).map some from (Option.map_map some (BitVec.ofNat 64) _).symm,
      Option.map_eq_some_iff]
    exact ⟨fun ⟨v, hv, hx⟩ => ⟨v, hx.symm, (hexBelow_map_iff t v).1 hv⟩,
      fun ⟨v, hx, hv⟩ => ⟨v, (hexBelow_map_iff t v).2 hv, hx.symm⟩⟩
  unfold keywordOr Says
  cases hv : keyword o 'V' with
  | none =>
    cases hm : keyword o 'M' with
    | none =>
      constructor
      · rintro ⟨v, m, h1, h2, rfl⟩
        cases h1
        cases h2
        exact ⟨fun _ _ => rfl, fun h => absurd ⟨rfl, rfl⟩ h⟩
      · rintro ⟨h, -⟩
        exact ⟨none, none, rfl, rfl, (h rfl rfl).symm⟩
    | some t =>
      simp only [hread]
      constructor
      · rintro ⟨v, m, h1, ⟨y, rfl, hy⟩, rfl⟩
        cases h1
        exact ⟨by simp, fun _ => ⟨_, rfl, rfl, hy⟩⟩
      · rintro ⟨-, h⟩
        obtain ⟨d, rfl, hval, hmask⟩ := h (by simp)
        refine ⟨none, some d.mask, rfl, ⟨d.mask, rfl, hmask⟩, ?_⟩
        show some { value := 0, mask := d.mask } = some d
        rw [← hval]
  | some u =>
    cases hm : keyword o 'M' with
    | none =>
      simp only [hread]
      constructor
      · rintro ⟨v, m, ⟨x, rfl, hx⟩, h2, rfl⟩
        cases h2
        exact ⟨by simp, fun _ => ⟨_, rfl, hx, rfl⟩⟩
      · rintro ⟨-, h⟩
        obtain ⟨d, rfl, hval, hmask⟩ := h (by simp)
        refine ⟨some d.value, none, ⟨d.value, rfl, hval⟩, rfl, ?_⟩
        show some { value := d.value, mask := BitVec.allOnes 64 } = some d
        rw [← hmask]
    | some t =>
      simp only [hread]
      constructor
      · rintro ⟨v, m, ⟨x, rfl, hx⟩, ⟨y, rfl, hy⟩, rfl⟩
        exact ⟨by simp, fun _ => ⟨_, rfl, hx, hy⟩⟩
      · rintro ⟨-, h⟩
        obtain ⟨d, rfl, hval, hmask⟩ := h (by simp)
        exact ⟨some d.value, some d.mask, ⟨d.value, rfl, hval⟩, ⟨d.mask, rfl, hmask⟩, rfl⟩

theorem programmingOk_iff (n : EntryNo) (e : WatchEntry) : programmingOk n e = true ↔ WsFits n e := by
  have hcond : (e.cond.isNone || e.classes == ⟨false, false, true⟩) = true ↔
      (e.cond.isSome = true → e.classes = ⟨false, false, true⟩) := by
    cases e.cond <;> simp
  have hrecord : (e.record.isSome == (e.action == some .subst)) = true ↔
      (e.record.isSome = true ↔ e.action = some .subst) := by
    rw [beq_iff_eq, Bool.eq_iff_iff, beq_iff_eq]
  have harm : (!(e.armSource == some (.entry n))) = true ↔ e.armSource ≠ some (.entry n) := by simp
  unfold programmingOk
  rw [Bool.and_eq_true, Bool.and_eq_true, Bool.and_eq_true, hcond, hrecord, harm, decide_eq_true_eq]
  exact ⟨fun ⟨⟨⟨h1, h2⟩, h3⟩, h4⟩ => ⟨h1, h2, h3, h4⟩, fun ⟨h1, h2, h3, h4⟩ => ⟨⟨⟨h1, h2⟩, h3⟩, h4⟩⟩

theorem readWs_eq_some_iff (o : Operands) (n : EntryNo) (e : WatchEntry) :
    readWs o = some (n, e) ↔ WsSays o n e ∧ WsFits n e := by
  have hgate : (!onlyKeywords o ['B', 'L', 'C', 'V', 'M', 'A', 'S', 'W', 'O', 'R', 'F']) = true ↔
      ¬ ∀ x ∈ o.kws, x.1 ∈ ['B', 'L', 'C', 'V', 'M', 'A', 'S', 'W', 'O', 'R', 'F'] := by
    rw [← onlyKeywords_iff, Bool.not_eq_true', Bool.not_eq_true]
  have haction : ∀ a, (keyword o 'A').bind readAction = some a ↔ Says o 'A' False (fun t =>
      (t = ['P'] ∧ some a = some .pass) ∨ (t = ['N'] ∧ some a = some .note) ∨ (t = ['S'] ∧ some a = some .subst) ∨
        (t = ['H'] ∧ some a = some .hold) ∨ (t = ['F'] ∧ some a = some Action.freeze)) := fun a => by
    simp only [Option.some.injEq]
    rw [keyword_bind_eq_some_iff]
    exact says_congr Iff.rfl fun t => readAction_eq_some_iff t a
  have hclasses : ∀ c, keywordOr o 'C' ⟨true, true, true⟩ readClasses = some c ↔ Says o 'C' (c = ⟨true, true, true⟩)
      (fun t => t ≠ [] ∧ t.Nodup ∧ (∀ c ∈ t, c = 'F' ∨ c = 'L' ∨ c = 'S') ∧ (c.fetch = true ↔ 'F' ∈ t) ∧
        (c.load = true ↔ 'L' ∈ t) ∧ (c.store = true ↔ 'S' ∈ t)) := fun c => by
    rw [keywordOr_eq_some_iff]
    exact says_congr Iff.rfl fun t => readClasses_eq_some_iff t c
  have hrecord : ∀ r, keywordOr o 'S' none (fun t => (hexBelow 8 t).map (fun r => some (Fin.ofNat 8 r))) = some r ↔
      Says o 'S' (r = none) (fun t => ∃ k : RecordNo, hexNum t = some k.val ∧ r = some k) := fun r => by
    rw [keywordOr_eq_some_iff]
    refine says_congr Iff.rfl fun t => ?_
    simp only [Option.map_eq_some_iff, hexBelow_eq_some_iff]
    constructor
    · rintro ⟨k, ⟨hk, hlt⟩, rfl⟩
      exact ⟨⟨k, hlt⟩, hk, by simp [Fin.ofNat, Nat.mod_eq_of_lt hlt]⟩
    · rintro ⟨k, hk, rfl⟩
      exact ⟨k.val, ⟨hk, k.isLt⟩, by simp⟩
  have hflag : ∀ (k : Char) (b : Bool), keywordOr o k false flagValue = some b ↔
      Says o k (b = false) (fun t => hexNum t = some (if b then 1 else 0)) := fun k b => by
    rw [keywordOr_eq_some_iff]
    exact says_congr Iff.rfl fun t => flagValue_eq_some_iff t b
  have harm : ∀ x, keywordOr o 'F' none (fun t => (readArmSource t).map some) = some x ↔
      Says o 'F' (x = none) (fun t => (t = ['T'] ∧ x = some .trigger) ∨
        (t.length = 1 ∧ ∃ m : EntryNo, hexNum t = some m.val ∧ x = some (.entry m))) := fun x => by
    rw [keywordOr_eq_some_iff]
    refine says_congr Iff.rfl fun t => ?_
    cases x with
    | none => simp
    | some x =>
      simp only [Option.map_eq_some_iff, Option.some.injEq, exists_eq_right]
      exact readArmSource_eq_some_iff t x
  unfold readWs
  refine (onePositional_bind_eq_some_iff o _ _).trans ⟨?_, ?_⟩
  · rintro ⟨p, hpos, h⟩
    obtain ⟨n', hn, h⟩ := Option.bind_eq_some_iff.1 h
    split_ifs at h with hk
    · cases h
    · obtain ⟨base, hb, h⟩ := Option.bind_eq_some_iff.1 h
      obtain ⟨action, ha, h⟩ := Option.bind_eq_some_iff.1 h
      obtain ⟨b, rfl, hbase⟩ := keyword_number_iff.1 hb
      obtain ⟨limit, hl, h⟩ := Option.bind_eq_some_iff.1 h
      obtain ⟨l, rfl, hlimit⟩ := (keywordOr_number_iff b).1 hl
      obtain ⟨classes, hc, h⟩ := Option.bind_eq_some_iff.1 h
      obtain ⟨value, hv, h⟩ := Option.bind_eq_some_iff.1 h
      obtain ⟨mask, hm, h⟩ := Option.bind_eq_some_iff.1 h
      obtain ⟨record, hs, h⟩ := Option.bind_eq_some_iff.1 h
      obtain ⟨alert, hw, h⟩ := Option.bind_eq_some_iff.1 h
      obtain ⟨once, ho, h⟩ := Option.bind_eq_some_iff.1 h
      obtain ⟨reload, hr, h⟩ := Option.bind_eq_some_iff.1 h
      obtain ⟨r, rfl, hreload⟩ := (keywordOr_number_iff (w := 16) 0).1 hr
      obtain ⟨arm, hf, h⟩ := Option.bind_eq_some_iff.1 h
      obtain ⟨hok, h⟩ := Option.ite_none_right_eq_some.1 h
      cases h
      obtain ⟨hlen, hnum⟩ := (oneDigit_eq_some_iff p n).1 hn
      obtain ⟨hnoCond, hcond⟩ := (readCond_iff o _).1 ⟨value, mask, hv, hm, rfl⟩
      refine ⟨⟨⟨p, hpos, hlen, hnum⟩, not_not.1 fun hc => hk (hgate.2 hc), ?_, ?_, (hclasses _).1 hc, hnoCond, hcond,
        (haction _).1 ha, (hrecord _).1 hs, (hflag _ _).1 hw, (hflag _ _).1 ho, ?_, (harm _).1 hf, ?_, rfl, rfl, rfl⟩,
        (programmingOk_iff n _).1 hok⟩
      · simpa using hbase
      · simpa using hlimit
      · simpa using hreload
      · cases arm <;> rfl
  · rintro ⟨⟨⟨p, hpos, hlen, hnum⟩, hletters, hb, hl, hc, hnoCond, hcond, ha, hs, hw, ho, hr, hf, hstate, hfires, hremaining,
      hpending⟩, hfits⟩
    obtain ⟨st, base, limit, classes, cond, action, record, alert, once, arm, remaining, reload, pending, fires⟩ := e
    obtain ⟨action, rfl⟩ : ∃ a, action = some a := by
      unfold Says at ha
      split at ha
      · exact ha.elim
      · rcases ha with h | h | h | h | h <;> exact ⟨_, h.2⟩
    obtain ⟨value, mask, hv, hm, rfl⟩ := (readCond_iff o cond).2 ⟨hnoCond, hcond⟩
    dsimp only at hfires hremaining hpending
    subst hfires hremaining hpending
    have hst : st = if arm.isSome = true then .dormant else .armed := by
      cases arm <;> exact hstate
    subst hst
    refine ⟨p, hpos, Option.bind_eq_some_iff.2 ⟨n, (oneDigit_eq_some_iff p n).2 ⟨hlen, hnum⟩, ?_⟩⟩
    rw [if_neg (fun hc => hgate.1 hc hletters)]
    refine Option.bind_eq_some_iff.2 ⟨base.toNat, keyword_number_iff.2 ⟨base, rfl, hb⟩, ?_⟩
    refine Option.bind_eq_some_iff.2 ⟨action, (haction _).2 ha, ?_⟩
    refine Option.bind_eq_some_iff.2 ⟨limit.toNat, (keywordOr_number_iff base).2 ⟨limit, rfl, hl⟩, ?_⟩
    refine Option.bind_eq_some_iff.2 ⟨classes, (hclasses _).2 hc, ?_⟩
    refine Option.bind_eq_some_iff.2 ⟨value, hv, ?_⟩
    refine Option.bind_eq_some_iff.2 ⟨mask, hm, ?_⟩
    refine Option.bind_eq_some_iff.2 ⟨record, (hrecord _).2 hs, ?_⟩
    refine Option.bind_eq_some_iff.2 ⟨alert, (hflag _ _).2 hw, ?_⟩
    refine Option.bind_eq_some_iff.2 ⟨once, (hflag _ _).2 ho, ?_⟩
    refine Option.bind_eq_some_iff.2 ⟨remaining.toNat, (keywordOr_number_iff (w := 16) 0).2 ⟨remaining, rfl, hr⟩, ?_⟩
    refine Option.bind_eq_some_iff.2 ⟨arm, (harm _).2 hf, ?_⟩
    simp only [BitVec.ofNat_toNat, BitVec.setWidth_eq]
    exact if_pos ((programmingOk_iff n _).2 hfits)

end Sys2Proof.Machine
end

section
/-! PROOFS. The bytes of a substitution record (R89 to R92), bit by bit. -/

namespace Sys2Proof.Machine

theorem getLsbD_maskData (z : Size) (d : Data) (i : Nat) :
    (maskData z d).getLsbD i = (decide (i < 8 * sizeBytes z) && d.getLsbD i) := by
  have hz : 8 * sizeBytes z ≤ 64 := by cases z <;> decide
  simp only [maskData, BitVec.getLsbD_ofNat, Nat.testBit_mod_two_pow, BitVec.testBit_toNat]
  by_cases hi : i < 8 * sizeBytes z
  · have : i < 64 := by omega
    simp [hi, this]
  · simp [hi]

theorem getLsbD_byteOf (d : Data) (k i : Nat) : (byteOf d k).getLsbD i = (decide (i < 8) && d.getLsbD (8 * k + i)) := by
  simp only [byteOf, BitVec.getLsbD_ofNat, Nat.testBit_div_two_pow, BitVec.testBit_toNat, Nat.add_comm i]

/-- The byte addresses of an access that a record covers lie in the record's range (R89). -/
theorem SubstRecord.covers_iff (r : SubstRecord) (a : Word) (z : Size) : r.covers a z = true ↔
    r.addr.toNat ≤ a.toNat ∧ a.toNat + sizeBytes z ≤ r.addr.toNat + sizeBytes r.size := by
  simp [SubstRecord.covers]

theorem byteOf_read (r : SubstRecord) (a : Word) {z : Size} {k : Nat} (hk : k < sizeBytes z) :
    byteOf (r.read a z) k = byteOf r.value (a.toNat - r.addr.toNat + k) := by
  refine BitVec.eq_of_getLsbD_eq fun i hi => ?_
  have hin : 8 * k + i < 8 * sizeBytes z := by omega
  have hplace : 8 * (a.toNat - r.addr.toNat) + (8 * k + i) = 8 * (a.toNat - r.addr.toNat + k) + i := by omega
  simp only [SubstRecord.read, SubstRecord.shift, getLsbD_byteOf, getLsbD_maskData, BitVec.getLsbD_ushiftRight, hin,
    decide_true, Bool.true_and, hplace]

theorem byteOf_read_beyond (r : SubstRecord) (a : Word) {z : Size} {k : Nat} (hk : sizeBytes z ≤ k) :
    byteOf (r.read a z) k = 0 := by
  refine BitVec.eq_of_getLsbD_eq fun i hi => ?_
  have hout : ¬ 8 * k + i < 8 * sizeBytes z := by omega
  simp [SubstRecord.read, getLsbD_byteOf, getLsbD_maskData, hout]

/-- A store replaces the bytes at its own byte addresses, and no other (R92). -/
theorem byteOf_write (r : SubstRecord) (a : Word) (z : Size) (d : Data) {j : Nat} (hj : j < 8) :
    byteOf (r.write a z d).value j =
      if a.toNat - r.addr.toNat ≤ j ∧ j < a.toNat - r.addr.toNat + sizeBytes z
      then byteOf d (j - (a.toNat - r.addr.toNat)) else byteOf r.value j := by
  generalize hsh : a.toNat - r.addr.toNat = sh
  refine BitVec.eq_of_getLsbD_eq fun i hi => ?_
  have h64 : 8 * j + i < 64 := by omega
  simp only [apply_ite (fun b : Byte => b.getLsbD i), SubstRecord.write, SubstRecord.shift, hsh, getLsbD_byteOf, hi,
    decide_true, Bool.true_and, BitVec.getLsbD_or, BitVec.getLsbD_and, BitVec.getLsbD_not, BitVec.getLsbD_shiftLeft,
    getLsbD_maskData, h64, BitVec.getLsbD_allOnes]
  by_cases hin : sh ≤ j ∧ j < sh + sizeBytes z
  · have hlow : ¬ 8 * j + i < 8 * sh := by omega
    have hlen : 8 * j + i - 8 * sh < 8 * sizeBytes z := by omega
    have hword : 8 * j + i - 8 * sh < 64 := by omega
    have hplace : 8 * (j - sh) + i = 8 * j + i - 8 * sh := by omega
    rw [if_pos hin, hplace]
    simp [hlow, hlen, hword]
  · rw [if_neg hin]
    by_cases hlow : 8 * j + i < 8 * sh
    · simp [hlow]
    · have hlen : ¬ 8 * j + i - 8 * sh < 8 * sizeBytes z := by omega
      simp [hlow, hlen]

/-- Settles O13: the three laws bit by bit (`byteOf_read`, `byteOf_read_beyond`, `byteOf_write`). -/
theorem recordBytes : Obligations.RecordBytes := by
  unfold Obligations.RecordBytes
  intro r a z _
  exact ⟨fun k hk => byteOf_read r a hk, fun k hk => byteOf_read_beyond r a hk, fun d j hj => byteOf_write r a z d hj⟩

end Sys2Proof.Machine
end

section
/-! PROOFS. The laws of the watch entries and of the substitution records (R27, R86), and that every step keeps them. -/

namespace Sys2Proof.Machine

/-! ### One watch entry -/

theorem EntryOk.off (n : EntryNo) : EntryOk n WatchEntry.offValue := by
  refine ⟨fun _ => rfl, fun h => absurd rfl h, ?_, ?_, fun h => absurd rfl h, ?_, ?_⟩ <;> decide +revert

/-- What an entry counts, and whether it is DORMANT, ARMED or SPENT, is not in the table of fields. -/
theorem EntryOk.recounted {n : EntryNo} {e : WatchEntry} (h : EntryOk n e) (he : e.state ≠ .off) {st : EntryState}
    (hst : st ≠ .off) (remaining reload : Count) (pending : Option Count) (fires : Count) :
    EntryOk n { e with
      state := st, remaining := remaining, reload := reload, pendingReload := pending, fires := fires } :=
  ⟨fun hoff => absurd hoff hst, fun _ => h.action he, h.record, h.window, fun _ => h.classes he, h.cond, h.notSelf⟩

theorem EntryOk.judged {n : EntryNo} {e : WatchEntry} (h : EntryOk n e) (j : Judged) (fired : List EntryNo) :
    EntryOk n (judgedEntry e j fired) := by
  unfold judgedEntry
  split_ifs with hmatch harm
  · have harmed : e.state = .armed := by
      simp only [entryMatches, Bool.and_eq_true, beq_iff_eq, and_assoc] at hmatch
      exact hmatch.1
    have hon : e.state ≠ .off := by simp [harmed]
    unfold WatchEntry.afterMatch
    split_ifs
    · unfold WatchEntry.fired
      dsimp only
      split_ifs
      · exact h.recounted hon (by decide) _ _ _ _
      · exact h.recounted hon hon _ _ _ _
    · exact h.recounted hon hon _ _ _ _
  · have hdormant : e.state = .dormant := by
      unfold armedBy at harm
      rw [Bool.and_eq_true, beq_iff_eq] at harm
      exact harm.1
    exact h.recounted (by simp [hdormant]) (by decide) _ _ _ _
  · exact h

theorem EntryOk.triggered {n : EntryNo} {e : WatchEntry} (h : EntryOk n e) : EntryOk n (triggerArmed e) := by
  unfold triggerArmed
  split_ifs with harm
  · rw [Bool.and_eq_true, beq_iff_eq] at harm
    exact h.recounted (by simp [harm.1]) (by decide) _ _ _ _
  · exact h

/-- The entry that `WS` programs (R47, R48). -/
theorem entryOk_of_readWs {o : Operands} {n : EntryNo} {e : WatchEntry} (h : readWs o = some (n, e)) : EntryOk n e := by
  obtain ⟨hsays, hfits⟩ := (readWs_eq_some_iff o n e).1 h
  have hst : e.state ≠ .off := by
    rw [hsays.state]
    split <;> decide
  refine ⟨fun hoff => absurd hoff hst, fun _ => ?_, hfits.record, hfits.window, fun _ => ?_, hfits.cond, hfits.armSource⟩
  · have ha := hsays.action
    unfold Says at ha
    split at ha
    · exact ha.elim
    · rcases ha with h | h | h | h | h <;> simp [h.2]
  · have hc := hsays.classes
    unfold Says at hc
    split at hc
    · simp [hc]
    · obtain ⟨hne, -, hall, hf, hl, hs⟩ := hc
      obtain ⟨x, hx⟩ := List.exists_mem_of_ne_nil _ hne
      rcases hall x hx with rfl | rfl | rfl
      · simp [hf.2 hx]
      · simp [hl.2 hx]
      · simp [hs.2 hx]

/-! ### One substitution record -/

/-- R86: the record address is a multiple of the size, and the value fits the size. -/
def RecordOk (r : SubstRecord) : Prop := aligned r.addr r.size = true ∧ r.value.toNat < 2 ^ (8 * sizeBytes r.size)

theorem RecordOk.powerOn : RecordOk SubstRecord.powerOn := ⟨by decide, by decide⟩

theorem toNat_maskData_lt (z : Size) (d : Data) : (maskData z d).toNat < 2 ^ (8 * sizeBytes z) :=
  (BitVec.toNat_ofNat .. ▸ Nat.mod_le _ _).trans_lt (Nat.mod_lt _ (Nat.two_pow_pos _))

theorem RecordOk.write {r : SubstRecord} {a : Word} {z : Size} (h : RecordOk r) (hcov : r.covers a z = true) (d : Data) :
    RecordOk (r.write a z d) := by
  refine ⟨h.1, ?_⟩
  obtain ⟨hlow, hhigh⟩ := (r.covers_iff a z).1 hcov
  have hkept : (r.value &&& ~~~(maskData z (BitVec.allOnes 64) <<< r.shift a)).toNat < 2 ^ (8 * sizeBytes r.size) :=
    (BitVec.toNat_and .. ▸ Nat.and_le_left).trans_lt h.2
  have hbytes : (maskData z d <<< r.shift a).toNat < 2 ^ (8 * sizeBytes r.size) := by
    have hexp : 8 * sizeBytes z + r.shift a ≤ 8 * sizeBytes r.size := by
      unfold SubstRecord.shift
      omega
    calc (maskData z d <<< r.shift a).toNat
        ≤ (maskData z d).toNat <<< r.shift a := BitVec.toNat_shiftLeft .. ▸ Nat.mod_le _ _
      _ = (maskData z d).toNat * 2 ^ r.shift a := Nat.shiftLeft_eq _ _
      _ < 2 ^ (8 * sizeBytes z) * 2 ^ r.shift a :=
        Nat.mul_lt_mul_of_pos_right (toNat_maskData_lt z d) (Nat.two_pow_pos _)
      _ = 2 ^ (8 * sizeBytes z + r.shift a) := (pow_add _ _ _).symm
      _ ≤ 2 ^ (8 * sizeBytes r.size) := Nat.pow_le_pow_right (by decide) hexp
  exact BitVec.toNat_or .. ▸ Nat.or_lt_two_pow hkept hbytes

theorem RecordOk.hit {r : SubstRecord} {a : Access} (h : RecordOk r) (hcov : r.covers a.addr a.size = true) :
    RecordOk (hitEffect r a) := by
  unfold hitEffect
  cases a.cls with
  | store => exact h.write hcov _
  | fetch => exact h
  | load => exact h

theorem recordOk_of_readSs {o : Operands} {n : RecordNo} {r : SubstRecord} (h : readSs o = some (n, r)) : RecordOk r := by
  have hsays := (readSs_eq_some_iff o n r).1 h
  exact ⟨(aligned_iff _ _).2 hsays.aligned, hsays.fits⟩

/-! ### The tables -/

section
variable {s t : State}

theorem TablesOk.same (h : TablesOk s) (hwatch : t.watch = s.watch) (hsubst : t.subst = s.subst) : TablesOk t := by
  obtain ⟨he, hr⟩ := h
  refine ⟨fun n => ?_, fun n => ?_⟩
  · rw [State.entry, hwatch]
    exact he n
  · rw [State.record, hsubst]
    exact hr n

theorem TablesOk.entries_map (h : TablesOk s) {f : EntryNo → WatchEntry → WatchEntry}
    (hentry : ∀ n, t.entry n = f n (s.entry n)) (hsubst : t.subst = s.subst)
    (hf : ∀ n e, EntryOk n e → EntryOk n (f n e)) : TablesOk t := by
  refine ⟨fun n => ?_, (h.same (t := { s with subst := t.subst }) rfl hsubst).records⟩
  rw [hentry]
  exact hf n _ (h.entries n)

theorem TablesOk.setEntry (h : TablesOk s) {n : EntryNo} {e : WatchEntry} (he : EntryOk n e) :
    TablesOk (s.setEntry n e) := by
  refine ⟨fun m => ?_, h.records⟩
  rw [State.entry_setEntry]
  split_ifs with hm
  · exact hm ▸ he
  · exact h.entries m

theorem TablesOk.setRecord (h : TablesOk s) {n : RecordNo} {r : SubstRecord} (hr : RecordOk r) :
    TablesOk (s.setRecord n r) := by
  refine ⟨h.entries, fun m => ?_⟩
  rw [State.record_setRecord]
  split_ifs
  · exact hr
  · exact h.records m

theorem TablesOk.wipe (h : TablesOk s) : TablesOk s.entriesOff.recordsInvalid := by
  refine ⟨fun n => ?_, fun n => ?_⟩
  · rw [State.recordsInvalid_entry, State.entry_entriesOff]
    exact EntryOk.off n
  · rw [State.record_recordsInvalid]
    exact h.records n

theorem TablesOk.powerOn (s : State) : TablesOk s.powerOn := by
  refine ⟨fun n => ?_, fun n => ?_⟩
  · rw [show s.powerOn.entry n = WatchEntry.offValue by simp [State.entry, State.powerOn, State.reset]]
    exact EntryOk.off n
  · rw [show s.powerOn.record n = SubstRecord.powerOn by simp [State.record, State.powerOn, State.reset]]
    exact RecordOk.powerOn

end

/-! ### Operations that leave both tables as they are -/

/-- A part of the state that each step of a fold leaves as it is stays as it is. -/
theorem foldl_same {α β γ : Type} {f : β → α → β} (g : β → γ) (hf : ∀ b a, g (f b a) = g b) (l : List α) (b : β) :
    g (l.foldl f b) = g b := by
  induction l generalizing b with
  | nil => rfl
  | cons a l ih => rw [List.foldl_cons, ih, hf]

/-- The watch table and the substitution table. -/
def State.tables (s : State) : Vector WatchEntry 16 × Vector SubstRecord 8 := (s.watch, s.subst)

theorem State.tables_of_eq {s t : State} (hwatch : t.watch = s.watch) (hsubst : t.subst = s.subst) :
    t.tables = s.tables := by rw [State.tables, hwatch, hsubst]; rfl

theorem TablesOk.of_tables {s t : State} (h : TablesOk s) (ht : t.tables = s.tables) : TablesOk t :=
  h.same (congrArg Prod.fst ht) (congrArg Prod.snd ht)

theorem State.deliver_tables (s : State) : s.deliver.tables = s.tables := by
  unfold State.deliver
  split
  · rfl
  · unfold State.freeNamed
    split <;> rfl

theorem State.issueForward_tables (s : State) : s.issueForward.tables = s.tables := by
  unfold State.issueForward
  split <;> rfl

theorem State.farToSlot_tables (s : State) (n : SlotNo) (r : FarResponse) : (s.farToSlot n r).tables = s.tables := by
  unfold State.farToSlot
  split
  · rfl
  · split
    · unfold State.completeSlot
      dsimp only
      split <;> exact State.tables_of_eq (by simp) (by simp)
    all_goals rfl

theorem State.timeOut_tables (s : State) (n : SlotNo) : (s.timeOut n).tables = s.tables := by
  unfold State.timeOut
  split
  · rfl
  · exact State.tables_of_eq (by simp) (by simp)

theorem State.nearResetSlot_tables (s : State) (n : SlotNo) : (s.nearResetSlot n).tables = s.tables := by
  unfold State.nearResetSlot
  split
  · rfl
  · split <;> exact State.tables_of_eq (by simp) (by simp)

theorem State.assertNearReset_tables (s : State) : s.assertNearReset.tables = s.tables := by
  have hall := foldl_same State.tables State.nearResetSlot_tables allSixteen s
  unfold State.assertNearReset
  split_ifs
  · rfl
  · generalize allSixteen.foldl State.nearResetSlot s = u at hall
    exact hall

theorem farResetStep_tables (acc : State × Nat × Nat) (n : SlotNo) : (farResetStep acc n).1.tables = acc.1.tables := by
  unfold farResetStep
  split
  · rfl
  · split <;> exact State.tables_of_eq (by simp) (by simp)

/-! ### Operations on slots, and verbs -/

theorem tables_slotKept : SlotKept TablesOk (fun s n => TablesOk s ∧ ∃ a, s.slot n = some a) where
  same hs hst := hs.same hst.tables.watch hst.tables.subst
  slot hs := hs.2
  judge j hs := hs.entries_map (f := fun n e => judgedEntry e j _) (fun n => State.entry_judgeEntries _ j n) (by simp)
    (fun n e he => he.judged j _)
  misaligned req hs _ _ := hs.same rfl rfl
  take {s n} req d k fired owner act hs _ _ _ := by
    have htaken : (s.takeSlot n (newAccess req k d owner)).slot n = some (newAccess req k d owner) := by
      rw [State.takeSlot_slot, Function.update_self]
    unfold State.recordJudged
    split
    · split_ifs
      · obtain ⟨q, hq⟩ := State.makeRecord_slot _ n (newRecord _ n req fired _ (dispOfAction act)) htaken
        exact ⟨hs.same (by simp) (by simp), _, by rw [hq, Function.update_self]⟩
      · exact ⟨hs.same rfl rfl, _, htaken⟩
    · exact ⟨hs.same rfl rfl, _, htaken⟩
  holdOrder p hs _ := hs.1.same (by simp) (by simp)
  decision _ hs := hs.1.same (by simp) (by simp)
  leave hs hn := by
    obtain ⟨a, ha, -⟩ := hn
    exact ⟨hs.same rfl rfl, a, ha⟩
  released {s n} hs := by
    obtain ⟨hs, a, ha⟩ := hs
    exact ⟨hs.same rfl rfl, a.released, by simp [ha]⟩
  hit hs ha hk := by
    obtain ⟨hs, hslot⟩ := hs
    refine ⟨hs.setRecord (RecordOk.hit (hs.records _) ?_), hslot⟩
    unfold State.hitRecord at hk
    obtain ⟨-, hvalid⟩ := Option.filter_eq_some_iff.1 hk
    exact (Bool.and_eq_true .. ▸ hvalid).2
  answer o r d hs := hs.1.same (by simp) (by simp)
  marked m hs := by
    obtain ⟨hs, a, ha⟩ := hs
    exact ⟨hs.same (by simp) (by simp), a, by simpa using ha⟩
  forward hs := hs.1.same (by simp) (by simp)
  mark n m hs := hs.same (by simp) (by simp)
  order p hs _ := hs.same rfl rfl

theorem TablesOk.cmdWr {s : State} (h : TablesOk s) (o : Operands) : TablesOk (cmdWr o s).1 := by
  unfold Machine.cmdWr
  split
  · exact h
  · rename_i n v _
    have hn := h.entries n
    cases hst : (s.entry n).state with
    | off => simpa only [hst] using h
    | armed =>
      simp only [hst]
      exact h.setEntry (hn.recounted (by simp [hst]) (by decide) _ _ _ _)
    | dormant =>
      simp only [hst]
      exact h.setEntry (hn.recounted (by simp [hst]) (by decide) _ _ _ _)
    | spent =>
      simp only [hst]
      exact h.setEntry (hn.recounted (by simp [hst]) (by decide) _ _ _ _)

theorem TablesOk.cmdWa {s : State} (h : TablesOk s) (o : Operands) : TablesOk (cmdWa o s).1 := by
  unfold Machine.cmdWa
  split
  · exact h
  · rename_i n _
    have hn := h.entries n
    cases hst : (s.entry n).state with
    | off => simpa only [hst] using h
    | armed => simpa only [hst] using h
    | dormant =>
      simp only [hst]
      exact h.setEntry (hn.recounted (by simp [hst]) (by decide) _ _ _ _)
    | spent =>
      simp only [hst]
      exact h.setEntry (hn.recounted (by simp [hst]) (by decide) _ _ _ _)

theorem TablesOk.cmdWd {s : State} (h : TablesOk s) (o : Operands) : TablesOk (cmdWd o s).1 := by
  unfold Machine.cmdWd
  split
  · exact h
  · split_ifs with hst
    · exact h.setEntry ((h.entries _).recounted (by simp [hst]) (by decide) _ _ _ _)
    · exact h

theorem TablesOk.verb {s : State} (h : TablesOk s) {v : Verb} (hv : leavesCore v = false) (src : Source) (o : Operands) :
    TablesOk (verbRule v src o s).1 := by
  cases v with
  | fr =>
    simp only [verbRule, cmdFr]
    split
    · exact h
    · exact farReset_kept tables_slotKept.same (fun n hs => hs.of_tables (farResetStep_tables _ n)) h
  | ws =>
    simp only [verbRule, cmdWs]
    split
    · exact h
    · rename_i hread
      split_ifs
      · exact h
      · exact h.setEntry (entryOk_of_readWs hread)
  | wr => exact h.cmdWr o
  | wa => exact h.cmdWa o
  | wd => exact h.cmdWd o
  | wx =>
    simp only [verbRule, cmdWx]
    split
    · exact h
    · exact h.setEntry (EntryOk.off _)
  | hr => exact tables_slotKept.cmdHr o h
  | ha => exact tables_slotKept.cmdHa o h
  | hf => exact tables_slotKept.cmdHf o h
  | ra => exact tables_slotKept.cmdRa o h
  | ss =>
    simp only [verbRule, cmdSs]
    split
    · exact h
    · rename_i hread
      exact h.setRecord (recordOk_of_readSs hread)
  | sx =>
    simp only [verbRule, cmdSx]
    split
    · exact h
    · exact h.setRecord (h.records _)
  | ln => simp only [verbRule, cmdLn]; split <;> [exact h; (split <;> [exact h; (split_ifs <;> exact h.same rfl rfl)])]
  | lc => simp only [verbRule, cmdLc]; split <;> exact h.same rfl rfl
  | lm => simp only [verbRule, cmdLm]; split <;> exact h.same rfl rfl
  | cl =>
    simp only [verbRule, cmdCl]
    split
    · exact h
    · exact (tables_slotKept.releaseAll (h.same (t := s.clearRecords) rfl rfl)).wipe.same (by simp; rfl) (by simp; rfl)
  | ts | wq | hl | sq | lr | ak | go | byp | fz | th | st | sp | ma | mr | mw => cases hv

theorem tables_kept : Kept TablesOk where
  core := tables_slotKept.same
  powerOn {s} _ := .powerOn s
  accept req hs hfree hlive := tables_slotKept.accept req hs hfree hlive
  deliver hs := hs.of_tables (State.deliver_tables _)
  issue hs := hs.of_tables (State.issueForward_tables _)
  far n r hs := hs.of_tables (State.farToSlot_tables _ n r)
  tick hs := hs.same rfl rfl
  timeOut hs _ := hs.of_tables (State.timeOut_tables _ _)
  expire hs hdue := tables_slotKept.expire hs hdue
  nearReset hs := hs.of_tables (State.assertNearReset_tables _)
  trigger {s} hs := by
    unfold State.triggerEntries
    split_ifs
    · exact hs.entries_map (f := fun n e => triggerArmed e) (fun n => by simp [State.entry]) rfl (fun n e he => he.triggered)
    · exact hs
  verb v src o hv hs := hs.verb hv src o
  wipe hs := hs.wipe

/-- Settles O58: the laws of one entry and of one record are kept by each change of a table, so by each step. -/
theorem stepKeepsTables : Obligations.StepKeepsTables := by
  unfold Obligations.StepKeepsTables
  intro s t h hstep
  exact tables_kept.step h hstep

end Sys2Proof.Machine
end

section
/-! PROOFS. Slots that leave the hold queue without an answer of the console (R61, R63, R64): what one departure does, and what
a list of them does, in terms of the state before. -/

namespace Sys2Proof.Machine

/-! ### One departure -/

/-- The record that the access hits when it proceeds: only a pending substitution hits one (R63, R64). -/
def State.departHit (s : State) (a : Access) : Option RecordNo :=
  if a.pendAction = some .substitute then s.hitRecord a else none

theorem State.departHit_eq_some_iff (s : State) (a : Access) (k : RecordNo) :
    s.departHit a = some k ↔ a.pendAction = some .substitute ∧ Hits s a k := by
  unfold State.departHit
  split_ifs with hp
  · rw [State.hitRecord_iff]
    exact (and_iff_right hp).symm
  · simp [hp]

/-- The slot of an access that has proceeded. -/
def State.departing (s : State) (a : Access) : Access := if (s.departHit a).isSome then answered a else left a .queued

/-- The entry that answers a hit (R91, R92). -/
def State.hitEntry (s : State) (n : SlotNo) (a : Access) (g : NearTag) (k : RecordNo) : RespEntry :=
  { tag := g, reason := .ok, data := readData a.cls ((s.record k).read a.addr a.size), slot := some n }

/-- The log after the access has proceeded (R106, R107). -/
def State.departLog (s : State) (a : Access) : Log :=
  match s.departHit a with
  | some k => logClosed s.log a.logSeq .substituted .ok (readData a.cls ((s.record k).read a.addr a.size))
  | none => if a.pendAction = some .substitute then logMarked s.log a.logSeq .substMiss else s.log

section
variable {s : State} {n : SlotNo} {a : Access} {g : NearTag}

theorem State.proceed_hit {k : RecordNo} (ha : s.slot n = some a) (hg : a.tag = some g) (hk : s.departHit a = some k) :
    s.proceed n = { s with
      hold := s.hold.filter (fun m => m != n)
      transit := { s.transit with slots := s.transit.slots.set n (some (answered a)) }
      near := { s.near with responses := s.near.responses ++ [s.hitEntry n a g k] }
      subst := s.subst.set k (afterHit (s.record k) a)
      log := s.departLog a } := by
  have hlog : s.departLog a =
      logClosed s.log a.logSeq .substituted .ok (readData a.cls ((s.record k).read a.addr a.size)) := by
    rw [State.departLog, hk]
  unfold State.departHit at hk
  split_ifs at hk with hp
  have hslot : ((s.leaveHold n).modSlot n Access.released).slot n = some a.released := by
    rw [State.slot_modSlot_same, show (s.leaveHold n).slot n = s.slot n from rfl, ha]
    rfl
  have hhit : ((s.leaveHold n).modSlot n Access.released).hitRecord a.released = some k := hk
  unfold State.proceed
  rw [ha, Option.bind_some, hp]
  dsimp only
  unfold State.carryOut
  rw [hslot]
  dsimp only
  rw [hhit]
  dsimp only
  rw [State.closeAnswer_eq (a := a.released) _ _ _ (by exact hslot) hg, hlog, hitData_eq, hitEffect_eq]
  simp only [State.setRecord, State.modSlot, State.setSlot, State.leaveHold, Vector.set_set]
  rfl

theorem State.proceed_queued (ha : s.slot n = some a) (hk : s.departHit a = none) :
    s.proceed n = { s with
      hold := s.hold.filter (fun m => m != n)
      transit := { s.transit with slots := s.transit.slots.set n (some (left a .queued)) }
      far := { s.far with forward := s.far.forward ++ [n] }
      log := s.departLog a } := by
  have hlog : s.departLog a = if a.pendAction = some .substitute then logMarked s.log a.logSeq .substMiss else s.log := by
    rw [State.departLog, hk]
  rw [hlog]
  unfold State.departHit at hk
  split_ifs at hk ⊢ with hp
  · have hslot : ((s.leaveHold n).modSlot n Access.released).slot n = some a.released := by
      rw [State.slot_modSlot_same, show (s.leaveHold n).slot n = s.slot n from rfl, ha]
      rfl
    have hmiss : ((s.leaveHold n).modSlot n Access.released).hitRecord a.released = none := hk
    unfold State.proceed
    rw [ha, Option.bind_some, hp]
    dsimp only
    unfold State.carryOut
    rw [hslot]
    dsimp only
    rw [hmiss]
    dsimp only
    rw [State.markRecord_eq .substMiss hslot, State.forwardSlot_eq (a := a.released) (by exact hslot)]
    simp only [State.modSlot, State.setSlot, State.leaveHold, Vector.set_set]
    rfl
  · have hrelease : s.proceed n = s.release n := by
      unfold State.proceed
      rw [ha, Option.bind_some]
      cases hpend : a.pendAction with
      | none => rfl
      | some p =>
        cases p with
        | forward => rfl
        | substitute => exact absurd hpend hp
    rw [hrelease, State.release_eq ha]

theorem State.proceed_slot (ha : s.slot n = some a) (hg : a.tag = some g) :
    (s.proceed n).slot = Function.update s.slot n (some (s.departing a)) := by
  unfold State.departing
  cases hk : s.departHit a with
  | none =>
    rw [State.proceed_queued ha hk]
    exact slot_eq_update rfl
  | some k =>
    rw [State.proceed_hit ha hg hk]
    exact slot_eq_update rfl

theorem State.proceed_hold (ha : s.slot n = some a) (hg : a.tag = some g) :
    (s.proceed n).hold = s.hold.filter (fun m => m != n) := by
  cases hk : s.departHit a with
  | none => rw [State.proceed_queued ha hk]
  | some k => rw [State.proceed_hit ha hg hk]

theorem State.proceed_forward (ha : s.slot n = some a) (hg : a.tag = some g) :
    (s.proceed n).far.forward = s.far.forward ++ (if (s.departHit a).isSome then [] else [n]) := by
  cases hk : s.departHit a with
  | none => rw [State.proceed_queued ha hk]; rfl
  | some k =>
    rw [State.proceed_hit ha hg hk]
    simp

theorem State.proceed_responses (ha : s.slot n = some a) (hg : a.tag = some g) :
    (s.proceed n).near.responses = s.near.responses ++ ((s.departHit a).map (s.hitEntry n a g)).toList := by
  cases hk : s.departHit a with
  | none =>
    rw [State.proceed_queued ha hk]
    simp
  | some k => rw [State.proceed_hit ha hg hk]; rfl

theorem State.proceed_record (ha : s.slot n = some a) (hg : a.tag = some g) (k : RecordNo) :
    (s.proceed n).record k = if s.departHit a = some k then afterHit (s.record k) a else s.record k := by
  cases hk : s.departHit a with
  | none =>
    rw [State.proceed_queued ha hk]
    rfl
  | some j =>
    rw [State.proceed_hit ha hg hk]
    refine (s.record_setRecord j k (afterHit (s.record j) a)).trans ?_
    simp only [Option.some.injEq]
    split_ifs with hjk
    · rw [hjk]
    · rfl

theorem State.proceed_log (ha : s.slot n = some a) (hg : a.tag = some g) : (s.proceed n).log = s.departLog a := by
  cases hk : s.departHit a with
  | none => rw [State.proceed_queued ha hk]
  | some k => rw [State.proceed_hit ha hg hk]

end

/-! ### What departures leave as it is -/

/-- From `s` to `t` only slots, their queues, substitution records and capture records change. -/
def Moves (s t : State) : Prop := t = { s with
  transit := { s.transit with slots := t.transit.slots }
  near := { s.near with responses := t.near.responses }
  far := { s.far with forward := t.far.forward }
  hold := t.hold
  subst := t.subst
  log := { s.log with records := t.log.records } }

theorem Moves.refl (s : State) : Moves s s := rfl

theorem Moves.trans {s t u : State} (h : Moves s t) (k : Moves t u) : Moves s u := by
  unfold Moves at *
  rw [h] at k
  exact k

theorem Moves.watch {s t : State} (h : Moves s t) : t.watch = s.watch := (congrArg State.watch h :)

theorem Moves.ctrl {s t : State} (h : Moves s t) : t.ctrl = s.ctrl := (congrArg State.ctrl h :)

theorem Moves.console {s t : State} (h : Moves s t) : t.console = s.console := (congrArg State.console h :)

theorem Moves.preload {s t : State} (h : Moves s t) : t.preload = s.preload := (congrArg State.preload h :)

theorem Moves.entry {s t : State} (h : Moves s t) : t.entry = s.entry := by
  funext n
  rw [State.entry, h.watch, State.entry]

theorem logClosed_records (l : Log) (q : Option Word) (o : RecordOutcome) (r : Reason) (d : Option Data) :
    logClosed l q o r d = { l with records := (logClosed l q o r d).records } := by cases q <;> rfl

theorem logMarked_records (l : Log) (q : Option Word) (m : PathMark) :
    logMarked l q m = { l with records := (logMarked l q m).records } := by cases q <;> rfl

theorem State.departLog_records (s : State) (a : Access) :
    s.departLog a = { s.log with records := (s.departLog a).records } := by
  unfold State.departLog
  split
  · exact logClosed_records ..
  · split
    · exact logMarked_records ..
    · rfl

theorem State.proceed_moves {s : State} {n : SlotNo} {a : Access} {g : NearTag} (ha : s.slot n = some a)
    (hg : a.tag = some g) : Moves s (s.proceed n) := by
  unfold Moves
  cases hk : s.departHit a with
  | none =>
    rw [State.proceed_queued ha hk]
    dsimp only
    rw [← State.departLog_records]
  | some k =>
    rw [State.proceed_hit ha hg hk]
    dsimp only
    rw [← State.departLog_records]

@[simp] theorem afterHit_valid (r : SubstRecord) (a : Access) : (afterHit r a).valid = r.valid := by
  unfold afterHit
  split <;> rfl

@[simp] theorem afterHit_addr (r : SubstRecord) (a : Access) : (afterHit r a).addr = r.addr := by
  unfold afterHit
  split <;> rfl

@[simp] theorem afterHit_size (r : SubstRecord) (a : Access) : (afterHit r a).size = r.size := by
  unfold afterHit
  split <;> rfl

/-- The records of `t` are placed as those of `s` are, and valid where those are. -/
def SameRanges (s t : State) : Prop := ∀ k, (t.record k).valid = (s.record k).valid ∧
  (t.record k).addr = (s.record k).addr ∧ (t.record k).size = (s.record k).size

theorem State.proceed_sameRanges {s : State} {n : SlotNo} {a : Access} {g : NearTag} (ha : s.slot n = some a)
    (hg : a.tag = some g) : SameRanges s (s.proceed n) := by
  intro k
  rw [State.proceed_record ha hg]
  split <;> simp

theorem hits_congr {s t : State} (hentry : t.entry = s.entry) (hranges : SameRanges s t) (a : Access) (k : RecordNo) :
    Hits t a k ↔ Hits s a k := by
  obtain ⟨hvalid, haddr, hsize⟩ := hranges k
  rw [Hits, Hits, hentry, hvalid, haddr, hsize]

theorem departHit_congr {s t : State} (hentry : t.entry = s.entry) (hranges : SameRanges s t) :
    t.departHit = s.departHit := by
  funext a
  refine Option.ext fun k => ?_
  rw [State.departHit_eq_some_iff, State.departHit_eq_some_iff, hits_congr hentry hranges]

/-! ### A list of departures -/

/-- The slots of the list proceed, one after the other. -/
def State.departed (s : State) (l : List SlotNo) : State := l.foldl State.proceed s

theorem State.departed_append (s : State) (l : List SlotNo) (n : SlotNo) :
    s.departed (l ++ [n]) = (s.departed l).proceed n := by simp [State.departed]

/-- Each slot of the list, once, holds an access with a near tag. -/
structure Leavers (s : State) (l : List SlotNo) : Prop where
  nodup  : l.Nodup
  access : ∀ n ∈ l, ∃ a g, s.slot n = some a ∧ a.tag = some g

theorem Leavers.init {s : State} {l : List SlotNo} {n : SlotNo} (h : Leavers s (l ++ [n])) : Leavers s l ∧ n ∉ l := by
  have hnd := List.nodup_append.1 h.nodup
  refine ⟨⟨hnd.1, fun m hm => h.access m (List.mem_append_left _ hm)⟩, fun hn => ?_⟩
  exact hnd.2.2 n hn n (List.mem_singleton_self n) rfl

/-- The slot hits record k when it proceeds. -/
def State.hitsAt (s : State) (k : RecordNo) (n : SlotNo) : Bool := (s.slot n).any (fun a => s.departHit a == some k)

/-- The slot hits a record when it proceeds. -/
def State.hitsAny (s : State) (n : SlotNo) : Bool := (s.slot n).any (fun a => (s.departHit a).isSome)

/-- What a list of departures has done: everything but the responses and the log. -/
structure Gone (s t : State) (l : List SlotNo) : Prop where
  moves   : Moves s t
  ranges  : SameRanges s t
  slot    : ∀ m, t.slot m = if m ∈ l then (s.slot m).map s.departing else s.slot m
  hold    : t.hold = s.hold.filter (fun m => !l.contains m)
  forward : t.far.forward = s.far.forward ++ l.filter (fun m => !s.hitsAny m)
  record  : ∀ k, t.record k = ((l.filter (s.hitsAt k)).filterMap s.slot).foldl afterHit (s.record k)

theorem Gone.hits {s t : State} {l : List SlotNo} (h : Gone s t l) : t.departHit = s.departHit :=
  departHit_congr h.moves.entry h.ranges

theorem State.departed_gone {s : State} {l : List SlotNo} (h : Leavers s l) : Gone s (s.departed l) l := by
  induction l using List.reverseRecOn with
  | nil =>
    refine ⟨.refl s, fun k => ⟨rfl, rfl, rfl⟩, fun m => rfl, ?_, ?_, fun k => rfl⟩
    · simp [State.departed]
    · simp [State.departed]
  | append_singleton l n ih =>
    obtain ⟨hl, hn⟩ := h.init
    have hgone := ih hl
    obtain ⟨a, g, ha, hg⟩ := h.access n (by simp)
    have hslot : (s.departed l).slot n = some a := by rw [hgone.slot, if_neg hn, ha]
    have hhits := hgone.hits
    rw [State.departed_append]
    refine ⟨hgone.moves.trans (State.proceed_moves hslot hg), fun k => ?_, fun m => ?_, ?_, ?_, fun k => ?_⟩
    · obtain ⟨h1, h2, h3⟩ := hgone.ranges k
      obtain ⟨k1, k2, k3⟩ := State.proceed_sameRanges hslot hg k
      exact ⟨k1.trans h1, k2.trans h2, k3.trans h3⟩
    · rw [State.proceed_slot hslot hg]
      by_cases hm : m = n
      · subst hm
        simp [State.departing, hhits, ha]
      · rw [Function.update_of_ne hm, hgone.slot]
        simp [hm]
    · rw [State.proceed_hold hslot hg, hgone.hold, List.filter_filter]
      refine List.filter_congr fun m _ => ?_
      rw [Bool.eq_iff_iff]
      simp [and_comm]
    · rw [State.proceed_forward hslot hg, hgone.forward, hhits, List.filter_append, List.append_assoc]
      congr 2
      cases hk : s.departHit a <;> simp [State.hitsAny, ha, hk]
    · rw [State.proceed_record hslot hg, hgone.record, hhits, List.filter_append, List.filterMap_append, List.foldl_append]
      by_cases hk : s.departHit a = some k
      · simp [State.hitsAt, ha, hk]
      · simp [State.hitsAt, ha, hk]

theorem State.departed_responses {s : State} {l : List SlotNo} (h : Leavers s l) :
    RespondsFor s (s.departed l) (l.filter s.hitsAny) := by
  induction l using List.reverseRecOn with
  | nil => exact ⟨[], by simp [State.departed], rfl, fun e he => by cases he⟩
  | append_singleton l n ih =>
    obtain ⟨hl, hn⟩ := h.init
    have hgone := State.departed_gone hl
    obtain ⟨a, g, ha, hg⟩ := h.access n (by simp)
    have hslot : (s.departed l).slot n = some a := by rw [hgone.slot, if_neg hn, ha]
    obtain ⟨es, hes, hslots, hok⟩ := ih hl
    rw [State.departed_append]
    refine ⟨es ++ (((s.departed l).departHit a).map ((s.departed l).hitEntry n a g)).toList, ?_, ?_, ?_⟩
    · rw [State.proceed_responses hslot hg, hes, List.append_assoc]
    · rw [List.map_append, hslots, List.filter_append, List.map_append, hgone.hits]
      congr 1
      cases hk : s.departHit a <;> simp [State.hitsAny, ha, hk, State.hitEntry]
    · intro e he
      rcases List.mem_append.1 he with he | he
      · exact hok e he
      · cases hk : (s.departed l).departHit a with
        | none => simp [hk] at he
        | some k =>
          rw [hk, Option.map_some, Option.toList_some, List.mem_singleton] at he
          rw [he]
          rfl

/-- More departures add entries to the near response queue. -/
theorem State.departed_responses_mono {s : State} {l r : List SlotNo} (h : Leavers s (l ++ r)) {e : RespEntry}
    (he : e ∈ (s.departed l).near.responses) : e ∈ (s.departed (l ++ r)).near.responses := by
  induction r using List.reverseRecOn with
  | nil => simpa using he
  | append_singleton r n ih =>
    rw [← List.append_assoc] at h ⊢
    obtain ⟨hl, hn⟩ := h.init
    obtain ⟨a, g, ha, hg⟩ := h.access n (by simp)
    have hslot : (s.departed (l ++ r)).slot n = some a := by rw [(State.departed_gone hl).slot, if_neg hn, ha]
    rw [State.departed_append, State.proceed_responses hslot hg]
    exact List.mem_append_left _ (ih hl)

/-- The entry that answers a hit carries the record's bytes as the departures before it have left them. -/
theorem State.departed_response_at {s : State} {l r : List SlotNo} {n : SlotNo} {a : Access} {k : RecordNo}
    (h : Leavers s (l ++ n :: r)) (ha : s.slot n = some a) (hk : s.departHit a = some k) :
    ∃ e ∈ (s.departed (l ++ n :: r)).near.responses, e.slot = some n ∧ a.tag = some e.tag ∧ e.reason = .ok ∧
      e.data = readData a.cls (((s.departed l).record k).read a.addr a.size) := by
  obtain ⟨b, g, hb, hg⟩ := h.access n (by simp)
  rw [ha] at hb
  cases hb
  rw [show l ++ n :: r = (l ++ [n]) ++ r by simp] at h ⊢
  have hinit : Leavers s (l ++ [n]) := ⟨(List.nodup_append.1 h.nodup).1, fun m hm => h.access m (List.mem_append_left _ hm)⟩
  obtain ⟨hl, hn⟩ := hinit.init
  have hgone := State.departed_gone hl
  have hslot : (s.departed l).slot n = some a := by rw [hgone.slot, if_neg hn, ha]
  refine ⟨(s.departed l).hitEntry n a g k, State.departed_responses_mono h ?_, rfl, hg, rfl, rfl⟩
  rw [State.departed_append, State.proceed_responses hslot hg, hgone.hits, hk]
  simp

/-! ### The log under departures -/

theorem logClosed_getElem? (l : Log) (q : Option Word) (o : RecordOutcome) (r : Reason) (d : Option Data) (i : Nat) :
    (logClosed l q o r d).records[i]? = l.records[i]?.map (fun c => if q = some c.seq then c.close o (some r) d else c) := by
  cases q with
  | none => simp [logClosed]
  | some q =>
    simp only [logClosed, List.getElem?_map, Option.some.injEq, eq_comm (a := q)]

theorem logMarked_getElem? (l : Log) (q : Option Word) (m : PathMark) (i : Nat) :
    (logMarked l q m).records[i]? = l.records[i]?.map (fun c => if q = some c.seq then c.mark m else c) := by
  cases q with
  | none => simp [logMarked]
  | some q =>
    simp only [logMarked, List.getElem?_map, Option.some.injEq, eq_comm (a := q)]

/-- The record of a sequence number after the access that names it, or does not, has proceeded. -/
def State.departRecord (s : State) (a : Access) (c : CaptureRecord) : CaptureRecord :=
  if a.pendAction = some .substitute ∧ a.logSeq = some c.seq then
    match s.departHit a with
    | some k => c.close .substituted (some .ok) (readData a.cls ((s.record k).read a.addr a.size))
    | none => c.mark .substMiss
  else c

theorem State.departLog_getElem? (s : State) (a : Access) (i : Nat) :
    (s.departLog a).records[i]? = s.log.records[i]?.map (s.departRecord a) := by
  unfold State.departLog State.departRecord
  cases hk : s.departHit a with
  | some k =>
    have hp := ((s.departHit_eq_some_iff a k).1 hk).1
    simp only [hp, true_and, logClosed_getElem?]
  | none =>
    dsimp only
    split_ifs with hp
    · simp only [hp, true_and, logMarked_getElem?]
    · simp [hp]

@[simp] theorem State.departRecord_seq (s : State) (a : Access) (c : CaptureRecord) : (s.departRecord a c).seq = c.seq := by
  unfold State.departRecord
  split
  · split <;> simp
  · rfl

/-- The capture records after a list of departures, where no two slots name the same record. -/
structure Logged (s t : State) (l : List SlotNo) : Prop where
  length : t.log.records.length = s.log.records.length
  named  : ∀ (i : Nat) c r n rest a, s.log.records[i]? = some c → l = r ++ n :: rest → s.slot n = some a →
             a.logSeq = some c.seq → t.log.records[i]? = some ((s.departed r).departRecord a c)
  other  : ∀ (i : Nat) c, s.log.records[i]? = some c →
             (∀ n ∈ l, ∀ a, s.slot n = some a → a.pendAction = some .substitute → a.logSeq ≠ some c.seq) →
             t.log.records[i]? = some c

theorem State.departRecord_of_ne {s : State} {a : Access} {c : CaptureRecord}
    (h : a.pendAction = some .substitute → a.logSeq ≠ some c.seq) : s.departRecord a c = c := by
  unfold State.departRecord
  rw [if_neg]
  exact fun hc => h hc.1 hc.2

theorem State.departed_logged {s : State} {l : List SlotNo} (h : Leavers s l)
    (honce : ∀ m n q, s.slotSeq m = some q → s.slotSeq n = some q → m = n) : Logged s (s.departed l) l := by
  induction l using List.reverseRecOn with
  | nil =>
    refine ⟨rfl, fun i c r n rest a _ hl => ?_, fun i c hc _ => hc⟩
    simp at hl
  | append_singleton l n ih =>
    obtain ⟨hl, hn⟩ := h.init
    have hgone := State.departed_gone hl
    obtain ⟨a, g, ha, hg⟩ := h.access n (by simp)
    have hslot : (s.departed l).slot n = some a := by rw [hgone.slot, if_neg hn, ha]
    obtain ⟨hlen, hnamed, hother⟩ := ih hl
    rw [State.departed_append]
    have hlog : ∀ i : Nat, ((s.departed l).proceed n).log.records[i]? =
        (s.departed l).log.records[i]?.map ((s.departed l).departRecord a) := fun i => by
      rw [State.proceed_log hslot hg, State.departLog_getElem?]
    refine ⟨?_, fun i c r m rest b hc hl' hb hq => ?_, fun i c hc hne => ?_⟩
    · rw [← hlen]
      refine le_antisymm ?_ ?_
      · rw [← List.getElem?_eq_none_iff, hlog, Option.map_eq_none_iff, List.getElem?_eq_none_iff]
      · rw [← List.getElem?_eq_none_iff, ← Option.map_eq_none_iff (f := (s.departed l).departRecord a), ← hlog,
          List.getElem?_eq_none_iff]
    · rcases List.eq_nil_or_concat rest with rfl | ⟨rest, x, rfl⟩
      · obtain ⟨rfl, hnm⟩ := List.append_inj' hl' rfl
        cases hnm
        rw [ha] at hb
        cases hb
        have hfresh : (s.departed l).log.records[i]? = some c := hother i c hc fun m hm b hb _ hbq => by
          refine hn ?_
          rwa [honce n m c.seq (by rw [slotSeq_of_slot ha]; exact hq) (by rw [slotSeq_of_slot hb]; exact hbq)]
        rw [hlog, hfresh]
        rfl
      · rw [List.concat_eq_append, ← List.cons_append, ← List.append_assoc] at hl'
        obtain ⟨rfl, hnx⟩ := List.append_inj' hl' rfl
        cases hnx
        have hbefore := hnamed i c r m rest b hc rfl hb hq
        have hmn : m ≠ n := fun he => hn (he ▸ by simp)
        rw [hlog, hbefore, Option.map_some, State.departRecord_of_ne]
        intro _ haq
        rw [State.departRecord_seq] at haq
        exact hmn (honce m n c.seq (by rw [slotSeq_of_slot hb]; exact hq) (by rw [slotSeq_of_slot ha]; exact haq))
    · have hbefore := hother i c hc fun m hm => hne m (List.mem_append_left _ hm)
      rw [hlog, hbefore, Option.map_some, State.departRecord_of_ne (hne n (by simp) a ha)]

end Sys2Proof.Machine
end

section
/-! PROOFS. Order clearance (R62 to R64) and the walk of `RA` and soft clear (R81, R85) as lists of departures. -/

namespace Sys2Proof.Machine

/-! ### The order guard -/

theorem blockedBy_iff (s : State) (ahead : List SlotNo) (a : Access) :
    s.blockedBy ahead a = true ↔ ∃ m ∈ ahead, Blocks s m a := by
  unfold State.blockedBy Blocks
  rw [List.any_eq_true]
  refine exists_congr fun m => and_congr_right fun _ => ?_
  rw [Option.any_eq_true]
  refine exists_congr fun b => and_congr_right fun _ => ?_
  simp only [conflict, rangesMeet, Bool.and_eq_true, Bool.or_eq_true, beq_iff_eq, decide_eq_true_eq]
  tauto

theorem blocked_iff {s : State} {n : SlotNo} {a : Access} (ha : s.slot n = some a) :
    s.blocked n = true ↔ ∃ m ∈ s.ahead n, Blocks s m a := by
  rw [State.blocked, ha, Option.any_some, blockedBy_iff]

theorem heldAs_iff {s : State} {n : SlotNo} {a : Access} (ha : s.slot n = some a) (r : HoldReason) :
    s.heldAs n r = true ↔ a.holdReason = some r := by
  simp [State.heldAs, ha]

/-- A sublist of a list without repetitions is what a filter by its members leaves of it. -/
theorem filter_contains_of_sublist {l m : List SlotNo} (h : l.Sublist m) (hm : m.Nodup) :
    m.filter (fun n => l.contains n) = l := by
  have hsub : l.Sublist (m.filter (fun n => l.contains n)) := by
    have hl : l.filter (fun n => l.contains n) = l := List.filter_eq_self.2 fun n hn => by simpa using hn
    rw [← hl]
    simpa using h.filter (fun n => l.contains n)
  refine (hsub.eq_of_length_le ((hm.filter _).length_le_of_subset fun n hn => ?_)).symm
  simpa using (List.mem_filter.1 hn).2

theorem takeWhile_ne_append {l r : List SlotNo} {n : SlotNo} (h : n ∉ l) : (l ++ n :: r).takeWhile (fun m => m != n) = l := by
  rw [List.takeWhile_append_of_pos (fun m hm => by simpa using fun he : m = n => h (he ▸ hm))]
  simp

theorem ahead_of_split {s : State} {l r : List SlotNo} {n : SlotNo} (h : s.hold = l ++ n :: r) (hn : n ∉ l) :
    s.ahead n = l := by
  rw [State.ahead, h, takeWhile_ne_append hn]

theorem ahead_subset_of_split {s : State} {p r : List SlotNo} {m x : SlotNo} (h : s.hold = p ++ r) (hm : m ∈ p)
    (hx : x ∈ s.ahead m) : x ∈ p := by
  obtain ⟨q, q', rfl, hq⟩ := List.eq_append_cons_of_mem hm
  rw [List.append_assoc, List.cons_append] at h
  rw [ahead_of_split h hq] at hx
  exact List.mem_append_left _ hx

/-- A held slot stands in the hold queue with an access that has a near tag and a hold reason. -/
theorem Lawful.held {s : State} (h : Lawful s) {n : SlotNo} (hn : n ∈ s.hold) :
    ∃ a g, s.slot n = some a ∧ a.state = .held ∧ a.tag = some g ∧ SlotOk a := by
  obtain ⟨a, ha, hst⟩ := (slotIs_iff s n _).1 ((h.transit.holdExact n).1 hn)
  have hok := h.slots n a ha
  obtain ⟨g, hg⟩ := Option.isSome_iff_exists.1 (hok.tag.2 (by simp [hst]))
  exact ⟨a, g, ha, hst, hg, hok⟩

theorem Lawful.leavers {s : State} (h : Lawful s) {l : List SlotNo} (hnd : l.Nodup) (hl : ∀ n ∈ l, n ∈ s.hold) :
    Leavers s l := by
  refine ⟨hnd, fun n hn => ?_⟩
  obtain ⟨a, g, ha, -, hg, -⟩ := h.held (hl n hn)
  exact ⟨a, g, ha, hg⟩

/-! ### Order clearance -/

/-- `l` are the slots of `p`, a beginning of the hold queue of `s`, whose access is of this kind and has no blocker among the
slots ahead of it that are not in `l` (R61). -/
structure LetGo (s : State) (kind : Access → Prop) (p l : List SlotNo) : Prop where
  sublist : l.Sublist p
  exact   : ∀ n a, n ∈ p → s.slot n = some a → (n ∈ l ↔ kind a ∧ ∀ m ∈ s.ahead n, m ∉ l → ¬ Blocks s m a)

theorem LetGo.nil (s : State) (kind : Access → Prop) : LetGo s kind [] [] := ⟨.refl _, fun n a hn => by cases hn⟩

section
variable {s : State} {kind : Access → Prop} {p r l : List SlotNo} {n : SlotNo} {a : Access}

theorem LetGo.stay (h : LetGo s kind p l) (hhold : s.hold = p ++ n :: r) (hp : n ∉ p) (ha : s.slot n = some a)
    (hstay : ¬ (kind a ∧ ∀ m ∈ p, m ∉ l → ¬ Blocks s m a)) : LetGo s kind (p ++ [n]) l := by
  refine ⟨h.sublist.trans (List.sublist_append_left _ _), fun m b hm hb => ?_⟩
  rcases List.mem_append.1 hm with hm | hm
  · exact h.exact m b hm hb
  · obtain rfl := List.mem_singleton.1 hm
    obtain rfl : a = b := Option.some.inj (ha.symm.trans hb)
    rw [ahead_of_split hhold hp]
    exact iff_of_false (fun hc => hp (h.sublist.subset hc)) hstay

/-- The slot just let go is not ahead of any slot of `p`, so it does not bear on them. -/
theorem LetGo.leave (h : LetGo s kind p l) (hhold : s.hold = p ++ n :: r) (hp : n ∉ p) (ha : s.slot n = some a)
    (hkind : kind a) (hfree : ∀ m ∈ p, m ∉ l → ¬ Blocks s m a) : LetGo s kind (p ++ [n]) (l ++ [n]) := by
  have hmem : ∀ m, m ≠ n → (m ∈ l ++ [n] ↔ m ∈ l) := fun m hm => by simp [hm]
  refine ⟨h.sublist.append_right [n], fun m b hm hb => ?_⟩
  rcases List.mem_append.1 hm with hm | hm
  · rw [hmem m fun he => hp (he ▸ hm), h.exact m b hm hb]
    refine and_congr_right fun _ => forall_congr' fun x => forall_congr' fun hx => ?_
    rw [hmem x fun he => hp (he ▸ ahead_subset_of_split hhold hm hx)]
  · obtain rfl := List.mem_singleton.1 hm
    obtain rfl : a = b := Option.some.inj (ha.symm.trans hb)
    rw [ahead_of_split hhold hp]
    refine iff_of_true (by simp) ⟨hkind, fun x hx hxl => hfree x hx fun hc => hxl (List.mem_append_left _ hc)⟩

end

/-- The slots that an order clearance lets go (R62). -/
def Cleared (s : State) (p l : List SlotNo) : Prop := LetGo s (fun a => a.holdReason = some .order) p l

/-- The slots that the walk releases (R81). -/
def Released (s : State) (p l : List SlotNo) : Prop := LetGo s (fun a => a.holdReason ≠ some .order) p l

theorem LetGo.leavers {s : State} {kind : Access → Prop} {p r l : List SlotNo} (h : LetGo s kind p l) (hs : Lawful s)
    (hhold : s.hold = p ++ r) : Leavers s l := by
  have hnd := hs.transit.holdNodup
  rw [hhold] at hnd
  refine hs.leavers (h.sublist.nodup (List.nodup_append.1 hnd).1) fun m hm => ?_
  rw [hhold]
  exact List.mem_append_left _ (h.sublist.subset hm)

theorem Lawful.notMem_of_split {s : State} (h : Lawful s) {p r : List SlotNo} {n : SlotNo} (hhold : s.hold = p ++ n :: r) :
    n ∉ p := by
  have hnd := h.transit.holdNodup
  rw [hhold] at hnd
  exact fun hc => (List.nodup_append.1 hnd).2.2 n hc n List.mem_cons_self rfl

/-- A slot that the departures before it have not moved is blocked by those of the slots ahead of it that stay. -/
theorem Gone.blocked_iff {s t : State} {l p r : List SlotNo} {n : SlotNo} {a : Access} (h : Gone s t l)
    (hhold : s.hold = p ++ n :: r) (hp : n ∉ p) (hn : n ∉ l) (ha : s.slot n = some a) :
    t.blocked n = true ↔ ∃ m ∈ p, m ∉ l ∧ Blocks s m a := by
  have hslot : ∀ m, m ∉ l → t.slot m = s.slot m := fun m hm => by rw [h.slot, if_neg hm]
  have hahead : t.ahead n = p.filter (fun m => !l.contains m) := by
    refine ahead_of_split (r := r.filter (fun m => !l.contains m)) ?_ (fun hc => hp (List.mem_of_mem_filter hc))
    rw [h.hold, hhold, List.filter_append, List.filter_cons_of_pos (by simpa using hn)]
  have hblocks : ∀ m, m ∉ l → (Blocks t m a ↔ Blocks s m a) := fun m hm => by rw [Blocks, Blocks, hslot m hm]
  rw [Machine.blocked_iff (by rw [hslot n hn, ha]), hahead]
  constructor
  · rintro ⟨m, hm, hb⟩
    obtain ⟨hmp, hml⟩ := List.mem_filter.1 hm
    have hml : m ∉ l := by simpa using hml
    exact ⟨m, hmp, hml, (hblocks m hml).1 hb⟩
  · rintro ⟨m, hmp, hml, hb⟩
    exact ⟨m, List.mem_filter.2 ⟨hmp, by simpa using hml⟩, (hblocks m hml).2 hb⟩

theorem clearance_prefix {s : State} (h : Lawful s) {p r : List SlotNo} (hhold : s.hold = p ++ r) :
    ∃ l, Cleared s p l ∧ p.foldl clearStep (s, 0) = (s.departed l, l.length) := by
  induction p using List.reverseRecOn generalizing r with
  | nil => exact ⟨[], LetGo.nil s _, rfl⟩
  | append_singleton p n ih =>
    rw [List.append_assoc, List.singleton_append] at hhold
    obtain ⟨l, hl, hfold⟩ := ih hhold
    have hp := h.notMem_of_split hhold
    have hn : n ∉ l := fun hc => hp (hl.sublist.subset hc)
    have hgone := State.departed_gone (hl.leavers h hhold)
    obtain ⟨a, g, ha, -, hg, -⟩ := h.held (n := n) (by simp [hhold])
    have hslot : (s.departed l).slot n = some a := by rw [hgone.slot, if_neg hn, ha]
    rw [List.foldl_append, hfold, List.foldl_cons, List.foldl_nil]
    unfold clearStep
    dsimp only
    have hguard : ((s.departed l).heldAs n .order && !(s.departed l).blocked n) = true ↔
        a.holdReason = some .order ∧ ∀ m ∈ p, m ∉ l → ¬ Blocks s m a := by
      rw [Bool.and_eq_true, heldAs_iff hslot, Bool.not_eq_true', Bool.eq_false_iff, ne_eq,
        hgone.blocked_iff hhold hp hn ha]
      simp only [not_exists, not_and]
    by_cases hc : ((s.departed l).heldAs n .order && !(s.departed l).blocked n) = true
    · rw [if_pos hc]
      obtain ⟨horder, hfree⟩ := hguard.1 hc
      refine ⟨l ++ [n], hl.leave hhold hp ha horder hfree, ?_⟩
      rw [State.departed_append, List.length_append, List.length_singleton]
    · rw [if_neg hc]
      exact ⟨l, hl.stay hhold hp ha fun hk => hc (hguard.2 hk), rfl⟩

/-- Order clearance is the departure of the slots that it lets go, in queue order. -/
theorem Lawful.clearance_eq {s : State} (h : Lawful s) :
    ∃ l, Cleared s s.hold l ∧ s.clearance = (s.departed l, l.length) :=
  clearance_prefix h (List.append_nil _).symm

/-! ### The walk -/

/-- An access that becomes an ORDER access with pending action FORWARD (R81). -/
def ordered (a : Access) : Access :=
  { a with state := .held, holdReason := some .order, holdTimer := none, pendAction := some .forward }

/-- `u` is `d` with some of the slots that waited for a decision made ORDER slots. -/
structure Ordered (d u : State) : Prop where
  same : u = { d with transit := { d.transit with slots := u.transit.slots } }
  slot : ∀ n, u.slot n = d.slot n ∨ (n ∈ d.hold ∧ ∃ a, d.slot n = some a ∧ a.state = .held ∧ a.pendAction = none ∧
           u.slot n = some (ordered a))

theorem Ordered.refl (s : State) : Ordered s s := ⟨rfl, fun _ => .inl rfl⟩

theorem Ordered.hold {d u : State} (h : Ordered d u) : u.hold = d.hold := (congrArg State.hold h.same :)

theorem Ordered.blocks {d u : State} (h : Ordered d u) (m : SlotNo) (a : Access) : Blocks u m a ↔ Blocks d m a := by
  rcases h.slot m with hm | ⟨-, b, hb, hst, -, hu⟩
  · rw [Blocks, Blocks, hm]
  · simp [Blocks, hb, hu, hst, ordered]

/-- Where no slot is held the two states are the same. -/
theorem Ordered.eq {d u : State} (h : Ordered d u) (hhold : d.hold = []) : u = d := by
  have hslots : u.transit.slots = d.transit.slots := by
    refine Vector.ext fun i hi => ?_
    rcases h.slot ⟨i, hi⟩ with hn | ⟨hn, -⟩
    · exact hn
    · rw [hhold] at hn
      cases hn
  rw [h.same, hslots]

theorem Ordered.departHit {d u : State} (h : Ordered d u) : u.departHit = d.departHit := by
  rw [h.same]
  rfl

theorem Ordered.departLog {d u : State} (h : Ordered d u) : u.departLog = d.departLog := by
  rw [h.same]
  rfl

theorem Ordered.hitEntry {d u : State} (h : Ordered d u) : u.hitEntry = d.hitEntry := by
  rw [h.same]
  rfl

/-- The fields of an access that a departure looks at, where it is or becomes an ORDER access without a substitution. -/
theorem State.departHit_of_not_substitute {s : State} {a : Access} (h : a.pendAction ≠ some .substitute) :
    s.departHit a = none := if_neg h

theorem State.departLog_of_not_substitute {s : State} {a : Access} (h : a.pendAction ≠ some .substitute) :
    s.departLog a = s.log := by
  rw [State.departLog, State.departHit_of_not_substitute h]
  exact if_neg h

theorem Ordered.proceed {d u : State} {n : SlotNo} {a : Access} {g : NearTag} (h : Ordered d u) (ha : d.slot n = some a)
    (hg : a.tag = some g) : Ordered (d.proceed n) (u.proceed n) := by
  have hafter : (u.proceed n).slot n = (d.proceed n).slot n ∧
      u.proceed n = { d.proceed n with transit := { (d.proceed n).transit with slots := (u.proceed n).transit.slots } } := by
    have hsame := h.same
    rcases h.slot n with hn | ⟨-, b, hb, -, hpend, hu⟩
    · have hua : u.slot n = some a := hn.trans ha
      constructor
      · rw [State.proceed_slot ha hg, State.proceed_slot hua hg, Function.update_self, Function.update_self,
          State.departing, State.departing, h.departHit]
      · cases hk : d.departHit a with
        | none =>
          rw [State.proceed_queued ha hk, State.proceed_queued hua (by rw [h.departHit, hk]), h.departLog]
          obtain ⟨U, rfl⟩ : ∃ U, u = { d with transit := { d.transit with slots := U } } := ⟨_, hsame⟩
          rfl
        | some k =>
          rw [State.proceed_hit ha hg hk, State.proceed_hit hua hg (by rw [h.departHit, hk]), h.departLog, h.hitEntry]
          obtain ⟨U, rfl⟩ : ∃ U, u = { d with transit := { d.transit with slots := U } } := ⟨_, hsame⟩
          rfl
    · obtain rfl : a = b := Option.some.inj (ha.symm.trans hb)
      have hna : a.pendAction ≠ some .substitute := by simp [hpend]
      have hno : (ordered a).pendAction ≠ some .substitute := by simp [ordered]
      have hka : d.departHit a = none := State.departHit_of_not_substitute hna
      have hko : u.departHit (ordered a) = none := State.departHit_of_not_substitute hno
      constructor
      · rw [State.proceed_slot ha hg, State.proceed_slot hu hg, Function.update_self, Function.update_self,
          State.departing, State.departing, hka, hko]
        rfl
      · rw [State.proceed_queued ha hka, State.proceed_queued hu hko, State.departLog_of_not_substitute hna,
          State.departLog_of_not_substitute hno]
        obtain ⟨U, rfl⟩ : ∃ U, u = { d with transit := { d.transit with slots := U } } := ⟨_, hsame⟩
        rfl
  have hu : ∃ b, u.slot n = some b ∧ b.tag = some g := by
    rcases h.slot n with hn | ⟨-, b, hb, -, -, hu⟩
    · exact ⟨a, hn.trans ha, hg⟩
    · obtain rfl : a = b := Option.some.inj (ha.symm.trans hb)
      exact ⟨ordered a, hu, hg⟩
  obtain ⟨b, hb, hbg⟩ := hu
  refine ⟨hafter.2, fun m => ?_⟩
  by_cases hm : m = n
  · rw [hm]
    exact .inl hafter.1
  · rw [State.proceed_slot ha hg, State.proceed_slot hb hbg, State.proceed_hold ha hg, Function.update_of_ne hm,
      Function.update_of_ne hm, List.mem_filter]
    rcases h.slot m with hx | ⟨hx, hrest⟩
    · exact .inl hx
    · exact .inr ⟨⟨hx, by simpa using hm⟩, hrest⟩

theorem Ordered.departed {d u : State} (h : Ordered d u) {l : List SlotNo} (hl : Leavers d l) :
    Ordered (d.departed l) (u.departed l) := by
  induction l using List.reverseRecOn with
  | nil => exact h
  | append_singleton l n ih =>
    obtain ⟨hinit, hn⟩ := hl.init
    obtain ⟨a, g, ha, hg⟩ := hl.access n (by simp)
    rw [State.departed_append, State.departed_append]
    exact (ih hinit).proceed (by rw [(State.departed_gone hinit).slot, if_neg hn, ha]) hg

theorem Ordered.makeOrder {d u : State} {n : SlotNo} {a : Access} (h : Ordered d u) (hn : n ∈ d.hold)
    (ha : d.slot n = some a) (hst : a.state = .held) (hpend : a.pendAction = none) (hu : u.slot n = some a) :
    Ordered d (u.makeOrder n .forward) := by
  have hslot : (u.makeOrder n .forward).slot = Function.update u.slot n (some (ordered a)) := by
    rw [State.makeOrder, State.modSlot_slot, hu]
    rfl
  refine ⟨?_, fun m => ?_⟩
  · have hsame := h.same
    obtain ⟨U, rfl⟩ : ∃ U, u = { d with transit := { d.transit with slots := U } } := ⟨_, hsame⟩
    rfl
  · rw [hslot]
    by_cases hm : m = n
    · subst hm
      rw [Function.update_self]
      exact .inr ⟨hn, a, ha, hst, hpend, rfl⟩
    · rw [Function.update_of_ne hm]
      exact h.slot m

/-- The walk has gone through `p`: it released `l`, and left the others as ORDER slots. -/
structure WalkedTo (s : State) (p l : List SlotNo) (w : State × Nat) : Prop where
  count   : w.2 = l.length
  ordered : Ordered (s.departed l) w.1
  rest    : ∀ n ∈ p, n ∉ l → w.1.heldAs n .order = true
  behind  : ∀ n, n ∉ p → w.1.slot n = s.slot n

theorem SlotOk.decision {a : Access} (h : SlotOk a) (hst : a.state = .held) (ho : a.holdReason ≠ some .order) :
    (a.holdReason = some .watch ∨ a.holdReason = some .freeze) ∧ a.pendAction = none := by
  constructor
  · obtain ⟨r, hr⟩ := Option.isSome_iff_exists.1 (h.reason.2 hst)
    cases r with
    | watch => exact .inl hr
    | freeze => exact .inr hr
    | order => exact absurd hr ho
  · refine Option.not_isSome_iff_eq_none.1 fun hp => ho (h.pending.1 hp)

theorem heldForDecision_iff {s : State} {n : SlotNo} {a : Access} (ha : s.slot n = some a) :
    s.heldForDecision n = true ↔ a.holdReason = some .watch ∨ a.holdReason = some .freeze := by
  rw [State.heldForDecision, Bool.or_eq_true, heldAs_iff ha, heldAs_iff ha]

/-- A slot without a pending action that proceeds is released. -/
theorem State.release_eq_proceed {s : State} {n : SlotNo} {a : Access} (ha : s.slot n = some a)
    (hpend : a.pendAction = none) : s.release n = s.proceed n := by
  rw [State.proceed, ha, Option.bind_some, hpend]

theorem State.heldAs_congr {s t : State} {n : SlotNo} (h : t.slot n = s.slot n) (r : HoldReason) :
    t.heldAs n r = s.heldAs n r := by
  rw [State.heldAs, State.heldAs, h]

theorem Ordered.blocked_iff {d u : State} {n : SlotNo} {a : Access} (h : Ordered d u) (hu : u.slot n = some a)
    (hd : d.slot n = some a) : u.blocked n = true ↔ d.blocked n = true := by
  have hahead : u.ahead n = d.ahead n := by rw [State.ahead, State.ahead, h.hold]
  rw [Machine.blocked_iff hu, Machine.blocked_iff hd, hahead]
  simp only [h.blocks]

theorem walk_prefix {s : State} (h : Lawful s) {p r : List SlotNo} (hhold : s.hold = p ++ r) :
    ∃ l, Released s p l ∧ WalkedTo s p l (p.foldl walkStep (s, 0)) := by
  induction p using List.reverseRecOn generalizing r with
  | nil =>
    exact ⟨[], LetGo.nil s _, { count := rfl, ordered := .refl s, rest := fun n hn => (by cases hn), behind := fun n _ => rfl }⟩
  | append_singleton p n ih =>
    rw [List.append_assoc, List.singleton_append] at hhold
    obtain ⟨l, hl, hw⟩ := ih hhold
    obtain ⟨⟨u, c⟩, hu⟩ : ∃ w, p.foldl walkStep (s, 0) = w := ⟨_, rfl⟩
    rw [hu] at hw
    obtain ⟨hcount, hordered, hrest, hbehind⟩ := hw
    dsimp only at hcount hordered hrest hbehind
    have hp := h.notMem_of_split hhold
    have hn : n ∉ l := fun hc => hp (hl.sublist.subset hc)
    have hgone := State.departed_gone (hl.leavers h hhold)
    obtain ⟨a, g, ha, hst, hg, hok⟩ := h.held (n := n) (by simp [hhold])
    have hslot : (s.departed l).slot n = some a := by rw [hgone.slot, if_neg hn, ha]
    have huslot : u.slot n = some a := by rw [hbehind n hp, ha]
    have hnp : ∀ m ∈ p, m ≠ n := fun m hm he => hp (he ▸ hm)
    rw [List.foldl_append, hu, List.foldl_cons, List.foldl_nil]
    unfold walkStep
    dsimp only
    by_cases horder : a.holdReason = some .order
    · rw [if_neg (by simp [heldForDecision_iff huslot, horder])]
      refine ⟨l, hl.stay hhold hp ha fun hk => hk.1 horder, hcount, hordered, fun m hm hml => ?_, fun m hm => ?_⟩
      · rcases List.mem_append.1 hm with hm | hm
        · exact hrest m hm hml
        · obtain rfl := List.mem_singleton.1 hm
          exact (heldAs_iff huslot _).2 horder
      · exact hbehind m fun hc => hm (List.mem_append_left _ hc)
    · obtain ⟨hdecision, hpend⟩ := hok.decision hst horder
      rw [if_pos ((heldForDecision_iff huslot).2 hdecision)]
      have hguard : u.blocked n = true ↔ ∃ m ∈ p, m ∉ l ∧ Blocks s m a := by
        rw [hordered.blocked_iff huslot hslot, hgone.blocked_iff hhold hp hn ha]
      by_cases hb : u.blocked n = true
      · rw [if_pos hb]
        obtain ⟨x, hx, hxl, hxb⟩ := hguard.1 hb
        have hnd : n ∈ (s.departed l).hold := by
          rw [hgone.hold]
          exact List.mem_filter.2 ⟨by simp [hhold], by simpa using hn⟩
        have hmade : (u.makeOrder n .forward).slot = Function.update u.slot n (some (ordered a)) := by
          rw [State.makeOrder, State.modSlot_slot, huslot]
          rfl
        refine ⟨l, hl.stay hhold hp ha fun hk => hk.2 x hx hxl hxb, hcount,
          hordered.makeOrder hnd hslot hst hpend huslot, fun m hm hml => ?_, fun m hm => ?_⟩
        · rcases List.mem_append.1 hm with hm | hm
          · rw [State.heldAs_congr (s := u) (by rw [hmade, Function.update_of_ne (hnp m hm)])]
            exact hrest m hm hml
          · obtain rfl := List.mem_singleton.1 hm
            exact (heldAs_iff (by rw [hmade, Function.update_self]) _).2 rfl
        · rw [hmade, Function.update_of_ne fun he => hm (by simp [he])]
          exact hbehind m fun hc => hm (List.mem_append_left _ hc)
      · rw [if_neg hb, State.release_eq_proceed huslot hpend]
        have hfree : ∀ m ∈ p, m ∉ l → ¬ Blocks s m a := fun m hm hml hmb => hb (hguard.2 ⟨m, hm, hml, hmb⟩)
        have hgoneSlot := State.proceed_slot huslot hg
        refine ⟨l ++ [n], hl.leave hhold hp ha horder hfree, ?_, ?_, fun m hm hml => ?_, fun m hm => ?_⟩
        · rw [List.length_append, List.length_singleton, hcount]
        · rw [State.departed_append]
          exact hordered.proceed hslot hg
        · obtain ⟨hml, hmn⟩ : m ∉ l ∧ m ≠ n := by simpa using hml
          obtain hm | hm := List.mem_append.1 hm
          · rw [State.heldAs_congr (s := u) (by rw [hgoneSlot, Function.update_of_ne hmn])]
            exact hrest m hm hml
          · exact absurd (List.mem_singleton.1 hm) hmn
        · rw [hgoneSlot, Function.update_of_ne fun he => hm (by simp [he])]
          exact hbehind m fun hc => hm (List.mem_append_left _ hc)

/-! ### The walk and its clearance -/

/-- Where every slot of the hold queue is an ORDER slot, the clearance lets all of them go (R81). -/
theorem Lawful.clearance_all {s : State} (h : Lawful s) (horder : ∀ n ∈ s.hold, s.heldAs n .order = true) :
    s.clearance = (s.departed s.hold, s.hold.length) := by
  obtain ⟨l, hl, hclear⟩ := h.clearance_eq
  have hall : ∀ p r, s.hold = p ++ r → ∀ n ∈ p, n ∈ l := by
    intro p r hhold
    induction p using List.reverseRecOn generalizing r with
    | nil => exact fun n hn => by cases hn
    | append_singleton p n ih =>
      rw [List.append_assoc, List.singleton_append] at hhold
      have hp := ih _ hhold
      obtain ⟨a, -, ha, -⟩ := h.held (n := n) (by simp [hhold])
      intro m hm
      rcases List.mem_append.1 hm with hm | hm
      · exact hp m hm
      · obtain rfl := List.mem_singleton.1 hm
        have hin : m ∈ s.hold := by simp [hhold]
        refine (hl.exact m a hin ha).2 ⟨(heldAs_iff ha _).1 (horder m hin), fun x hx hxl => ?_⟩
        rw [ahead_of_split hhold (h.notMem_of_split hhold)] at hx
        exact absurd (hp x hx) hxl
  have hle := h.transit.holdNodup.length_le_of_subset (l₂ := l) (hall s.hold [] (List.append_nil _).symm)
  rw [hl.sublist.eq_of_length_le hle] at hclear
  exact hclear

/-- All slots of the hold queue leave by the walk and its clearance, each once (R81). -/
theorem Lawful.leavers_releaseAll {s : State} (h : Lawful s) {rel : List SlotNo} (hrel : Released s s.hold rel) :
    Leavers s (rel ++ s.hold.filter (fun n => !rel.contains n)) := by
  refine h.leavers (List.nodup_append.2 ⟨hrel.sublist.nodup h.transit.holdNodup, h.transit.holdNodup.filter _, ?_⟩) ?_
  · rintro n hn m hm rfl
    simpa [hn] using (List.mem_filter.1 hm).2
  · intro n hn
    rcases List.mem_append.1 hn with hn | hn
    · exact hrel.sublist.subset hn
    · exact List.mem_of_mem_filter hn

/-- The walk and its clearance are the departures of the slots released, and then of the others, in queue order (R81). -/
theorem Lawful.releaseAll_eq {s : State} (h : Lawful s) : ∃ rel, Released s s.hold rel ∧
    s.releaseAll = (s.departed (rel ++ s.hold.filter (fun n => !rel.contains n)), rel.length, s.hold.length - rel.length) := by
  obtain ⟨rel, hrel, hcount, hordered, hrest, -⟩ := walk_prefix h (List.append_nil s.hold).symm
  change s.walk.2 = _ at hcount
  change Ordered _ s.walk.1 at hordered
  change ∀ n ∈ s.hold, n ∉ rel → s.walk.1.heldAs n .order = true at hrest
  have hleave := hrel.leavers h (List.append_nil s.hold).symm
  have hgone := State.departed_gone hleave
  have hhold : s.walk.1.hold = s.hold.filter (fun n => !rel.contains n) := hordered.hold.trans hgone.hold
  have hrestLeave : Leavers (s.departed rel) (s.hold.filter (fun n => !rel.contains n)) := by
    refine ⟨h.transit.holdNodup.filter _, fun n hn => ?_⟩
    obtain ⟨hn, hnr⟩ := List.mem_filter.1 hn
    obtain ⟨a, g, ha, -, hg, -⟩ := h.held hn
    exact ⟨a, g, by rw [hgone.slot, if_neg (by simpa using hnr), ha], hg⟩
  have hempty : ((s.departed rel).departed (s.hold.filter (fun n => !rel.contains n))).hold = [] := by
    rw [(State.departed_gone hrestLeave).hold, hgone.hold]
    refine List.filter_eq_nil_iff.2 fun n hn => ?_
    simpa using hn
  have hclear := (lawful_slotKept.walk h).clearance_all fun n hn => by
    rw [hhold] at hn
    exact hrest n (List.mem_of_mem_filter hn) (by simpa using (List.mem_filter.1 hn).2)
  have hlength : (s.hold.filter (fun n => !rel.contains n)).length = s.hold.length - rel.length := by
    have hsplit := s.hold.length_eq_length_filter_add (fun n => rel.contains n)
    rw [filter_contains_of_sublist hrel.sublist h.transit.holdNodup] at hsplit
    omega
  refine ⟨rel, hrel, ?_⟩
  unfold State.releaseAll
  dsimp only
  rw [hclear, hcount, hhold, hlength, (hordered.departed hrestLeave).eq hempty]
  simp [State.departed]

end Sys2Proof.Machine
end

section
/-! PROOFS. Departures of slots of the hold queue, in the terms in which the statements speak of them. -/

namespace Sys2Proof.Machine

theorem Leavers.front {s : State} {l r : List SlotNo} (h : Leavers s (l ++ r)) : Leavers s l :=
  ⟨(List.nodup_append.1 h.nodup).1, fun m hm => h.access m (List.mem_append_left _ hm)⟩

/-- `l` are slots of the hold queue of `s`, in the order in which they leave it: those that hit a record leave in queue
order. -/
structure Departure (s : State) (l : List SlotNo) : Prop where
  nodup : l.Nodup
  held  : ∀ n ∈ l, n ∈ s.hold
  order : l.filter s.hitsAny = s.hold.filter (fun n => l.contains n && s.hitsAny n)

/-- The traffic slots and the queues stand in `t` as they do in `d`. -/
structure Reached (d t : State) : Prop where
  hold      : t.hold = d.hold
  slot      : t.slot = d.slot
  forward   : t.far.forward = d.far.forward
  responses : t.near.responses = d.near.responses

theorem Reached.refl (s : State) : Reached s s := ⟨rfl, rfl, rfl, rfl⟩

theorem filter_of_sublist {l m : List SlotNo} (h : l.Sublist m) (hm : m.Nodup) (p : SlotNo → Bool) :
    l.filter p = m.filter (fun n => l.contains n && p n) := by
  rw [← List.filter_filter, List.filter_comm, filter_contains_of_sublist h hm]

theorem Departure.of_sublist {s : State} {l : List SlotNo} (h : Lawful s) (hl : l.Sublist s.hold) : Departure s l := by
  exact ⟨hl.nodup h.transit.holdNodup, fun n hn => hl.subset hn, filter_of_sublist hl h.transit.holdNodup _⟩

theorem State.hitsAny_iff {s : State} {n : SlotNo} {a : Access} (ha : s.slot n = some a) :
    s.hitsAny n = true ↔ a.pendAction = some .substitute ∧ ∃ k, Hits s a k := by
  rw [State.hitsAny, ha, Option.any_some, Option.isSome_iff_exists]
  simp only [State.departHit_eq_some_iff, exists_and_left]

theorem State.hitsAt_iff {s : State} {n : SlotNo} {a : Access} (ha : s.slot n = some a) (k : RecordNo) :
    s.hitsAt k n = true ↔ a.pendAction = some .substitute ∧ Hits s a k := by
  rw [State.hitsAt, ha, Option.any_some, beq_iff_eq, State.departHit_eq_some_iff]

theorem State.hitsAny_of_hitsAt {s : State} {n : SlotNo} {k : RecordNo} (h : s.hitsAt k n = true) : s.hitsAny n = true := by
  obtain ⟨a, ha, hk⟩ := Option.any_eq_true _ _ |>.1 h
  rw [State.hitsAny, ha, Option.any_some, beq_iff_eq.1 hk]
  rfl

/-- Equal filters stay equal under a narrower one. -/
theorem filter_narrow {l m : List SlotNo} {f g p : SlotNo → Bool} (h : l.filter f = m.filter (fun n => g n && f n))
    (hp : ∀ n, p n = true → f n = true) : l.filter p = m.filter (fun n => g n && p n) := by
  have hsub : ∀ n, (p n && f n) = p n := fun n => by
    cases hpn : p n with
    | false => rfl
    | true => rw [hp n hpn]; rfl
  calc l.filter p = (l.filter f).filter p := by
        rw [List.filter_filter]
        exact List.filter_congr fun n _ => (hsub n).symm
    _ = m.filter (fun n => g n && p n) := by
        rw [h, List.filter_filter]
        refine List.filter_congr fun n _ => ?_
        rw [Bool.and_left_comm, hsub]

section
variable {s t : State} {l : List SlotNo} {n : SlotNo} {a : Access} {k : RecordNo}

theorem Departure.leavers (hl : Departure s l) (h : Lawful s) : Leavers s l := h.leavers hl.nodup hl.held

theorem Departure.substLeaves_iff (hl : Departure s l) (h : Lawful s) (ht : Reached (s.departed l) t) :
    SubstLeaves s t n a ↔ n ∈ l ∧ s.slot n = some a ∧ a.pendAction = some .substitute := by
  have hgone : n ∈ t.hold ↔ n ∈ s.hold ∧ n ∉ l := by
    rw [ht.hold, (State.departed_gone (hl.leavers h)).hold, List.mem_filter]
    simp
  constructor
  · rintro ⟨hheld, hout, ha, hp⟩
    refine ⟨by_contra fun hn => hout (hgone.2 ⟨hheld, hn⟩), ha, hp⟩
  · rintro ⟨hn, ha, hp⟩
    exact ⟨hl.held n hn, fun hc => (hgone.1 hc).2 hn, ha, hp⟩

/-- The hits of those of the slots `ns` that leave, in the order of `ns`. -/
theorem Departure.hitsMade (hl : Departure s l) (h : Lawful s) (ht : Reached (s.departed l) t) (ns : List SlotNo)
    (k : RecordNo) : HitsMade s t ns k
      (((ns.filter (fun n => l.contains n && s.hitsAt k n)).filterMap s.slot).foldl afterHit (s.record k)) := by
  refine ⟨_, List.filter_sublist, fun n => ?_, rfl⟩
  rw [List.mem_filter, Bool.and_eq_true, List.contains_iff_mem]
  refine and_congr_right fun _ => ?_
  simp only [hl.substLeaves_iff h ht]
  constructor
  · rintro ⟨hn, hk⟩
    obtain ⟨a, -, ha, -⟩ := h.held (hl.held n hn)
    obtain ⟨hp, hhit⟩ := (State.hitsAt_iff ha k).1 hk
    exact ⟨a, ⟨hn, ha, hp⟩, hhit⟩
  · rintro ⟨a, ⟨hn, ha, hp⟩, hhit⟩
    exact ⟨hn, (State.hitsAt_iff ha k).2 ⟨hp, hhit⟩⟩

theorem Departure.hitsMade_hold (hl : Departure s l) (h : Lawful s) (ht : Reached (s.departed l) t) (k : RecordNo) :
    HitsMade s t s.hold k ((s.departed l).record k) := by
  rw [(State.departed_gone (hl.leavers h)).record, filter_narrow hl.order fun n => State.hitsAny_of_hitsAt]
  exact hl.hitsMade h ht s.hold k

/-- The record that a slot hits stands, when it leaves, as the hits of the slots ahead of it have left it. -/
theorem Departure.record_before (hl : Departure s l) (h : Lawful s) {p r : List SlotNo} (hsplit : l = p ++ n :: r)
    (hhit : s.hitsAny n = true) (k : RecordNo) : (s.departed p).record k =
      ((((s.ahead n).filter (fun m => l.contains m && s.hitsAt k m)).filterMap s.slot).foldl afterHit (s.record k)) := by
  have hleave := hl.leavers h
  rw [hsplit] at hleave
  have hp : Leavers s p := hleave.front
  have hn : n ∉ p := fun hc => (List.nodup_append.1 hleave.nodup).2.2 n hc n List.mem_cons_self rfl
  obtain ⟨q, q', hhold, hq⟩ := List.eq_append_cons_of_mem (hl.held n (by simp [hsplit]))
  have horder := hl.order
  rw [hhold, List.filter_append, List.filter_cons_of_pos (by simp [hsplit, hhit])] at horder
  conv_lhs at horder => rw [hsplit, List.filter_append, List.filter_cons_of_pos hhit]
  have hahead : p.filter s.hitsAny = q.filter (fun m => l.contains m && s.hitsAny m) := by
    have htake := congrArg (List.takeWhile (fun m => m != n)) horder
    rwa [takeWhile_ne_append fun hc => hn (List.mem_of_mem_filter hc),
      takeWhile_ne_append fun hc => hq (List.mem_of_mem_filter hc)] at htake
  rw [(State.departed_gone hp).record, ahead_of_split hhold hq, filter_narrow hahead fun m => State.hitsAny_of_hitsAt]

theorem Departure.slot_eq (hl : Departure s l) (h : Lawful s) (ht : Reached (s.departed l) t) (n : SlotNo) :
    t.slot n = if n ∈ l then (s.slot n).map s.departing else s.slot n := by
  rw [ht.slot, (State.departed_gone (hl.leavers h)).slot]

theorem Departure.departs (hl : Departure s l) (h : Lawful s) (ht : Reached (s.departed l) t) (hn : n ∈ l)
    (ha : s.slot n = some a) : Departs s t n a := by
  have hslot : t.slot n = some (s.departing a) := by rw [hl.slot_eq h ht, if_pos hn, ha, Option.map_some]
  have hqueued : s.departHit a = none → t.slot n = some (left a .queued) := fun hk => by
    rw [hslot, State.departing, hk]
    rfl
  refine ⟨fun hp => hqueued (State.departHit_of_not_substitute hp), fun _ hmiss => hqueued ?_, fun k hp hhit => ?_⟩
  · refine Option.eq_none_iff_forall_ne_some.2 fun k hk => ?_
    exact hmiss k ((s.departHit_eq_some_iff a k).1 hk).2
  · have hk := (s.departHit_eq_some_iff a k).2 ⟨hp, hhit⟩
    obtain ⟨p, r, hsplit⟩ := List.append_of_mem hn
    have hleave := hl.leavers h
    rw [hsplit] at hleave
    obtain ⟨e, he, hes, heg, her, hed⟩ := State.departed_response_at hleave ha hk
    rw [← hsplit, ← ht.responses] at he
    refine ⟨by rw [hslot, State.departing, hk]; rfl, e, he, hes, heg, her, ?_, _, hl.hitsMade h ht (s.ahead n) k, ?_⟩
    · rw [hed]
      simp [readData]
    · rw [hed, hl.record_before h hsplit ((State.hitsAny_iff ha).2 ⟨hp, k, hhit⟩)]

theorem Departure.answering_iff (hl : Departure s l) (h : Lawful s) (ht : Reached (s.departed l) t) (hn : n ∈ s.hold) :
    t.slotIs n .answering = true ↔ n ∈ l ∧ s.hitsAny n = true := by
  obtain ⟨a, -, ha, hst, -⟩ := h.held hn
  rw [slotIs_iff, hl.slot_eq h ht, ha, State.hitsAny, ha, Option.any_some]
  split_ifs with hnl
  · cases hk : s.departHit a <;> simp [State.departing, hk, hnl, left, answered]
  · simp [hnl, hst]

theorem Departure.queued_iff (hl : Departure s l) (h : Lawful s) (ht : Reached (s.departed l) t) (hn : n ∈ l) :
    t.slotIs n .queued = !s.hitsAny n := by
  obtain ⟨a, -, ha, -⟩ := h.held (hl.held n hn)
  rw [Bool.eq_iff_iff, slotIs_iff, hl.slot_eq h ht, ha, if_pos hn, State.hitsAny, ha, Option.any_some]
  cases hk : s.departHit a <;> simp [State.departing, hk, left, answered]

theorem Departure.responds (hl : Departure s l) (h : Lawful s) (ht : Reached (s.departed l) t) :
    RespondsFor s t (s.hold.filter (fun n => t.slotIs n .answering)) := by
  have hsame : s.hold.filter (fun n => t.slotIs n .answering) = l.filter s.hitsAny := by
    rw [hl.order]
    refine List.filter_congr fun n hn => ?_
    rw [Bool.eq_iff_iff, hl.answering_iff h ht hn, Bool.and_eq_true, List.contains_iff_mem]
  rw [hsame]
  obtain ⟨es, hes, hrest⟩ := State.departed_responses (hl.leavers h)
  exact ⟨es, ht.responses.trans hes, hrest⟩

theorem Departure.forwarded (hl : Departure s l) (h : Lawful s) (ht : Reached (s.departed l) t) :
    t.far.forward = s.far.forward ++ l.filter (fun n => t.slotIs n .queued) := by
  rw [ht.forward, (State.departed_gone (hl.leavers h)).forward]
  congr 1
  exact List.filter_congr fun n hn => (hl.queued_iff h ht hn).symm

theorem Departure.logFollows (hl : Departure s l) (h : Lawful s) (ht : Reached (s.departed l) t)
    (hrecords : t.log.records = (s.departed l).log.records) (hlog : LogOk s) : LogFollows s t := by
  obtain ⟨hlen, hnamed, hother⟩ := State.departed_logged (hl.leavers h) hlog.once
  refine ⟨by rw [hrecords, hlen], fun i c n a k hc hleaves hq hhit => ?_, fun i c n a hc hleaves hq hmiss => ?_,
    fun i c hc hne => ?_⟩
  · obtain ⟨hn, ha, hp⟩ := (hl.substLeaves_iff h ht).1 hleaves
    have hk := (s.departHit_eq_some_iff a k).2 ⟨hp, hhit⟩
    obtain ⟨p, r, hsplit⟩ := List.append_of_mem hn
    have hleave := hl.leavers h
    rw [hsplit] at hleave
    obtain ⟨e, he, hes, -, -, hed⟩ := State.departed_response_at hleave ha hk
    rw [← hsplit, ← ht.responses] at he
    refine ⟨e, he, hes, ?_⟩
    have hp' : Leavers s p := hleave.front
    rw [hrecords, hnamed i c p n r a hc hsplit ha hq, State.departRecord, if_pos ⟨hp, hq⟩,
      (State.departed_gone hp').hits, hk, hed]
  · obtain ⟨hn, ha, hp⟩ := (hl.substLeaves_iff h ht).1 hleaves
    obtain ⟨p, r, hsplit⟩ := List.append_of_mem hn
    have hleave := hl.leavers h
    rw [hsplit] at hleave
    have hk : s.departHit a = none := Option.eq_none_iff_forall_ne_some.2 fun k hk =>
      hmiss k ((s.departHit_eq_some_iff a k).1 hk).2
    rw [hrecords, hnamed i c p n r a hc hsplit ha hq, State.departRecord, if_pos ⟨hp, hq⟩,
      (State.departed_gone hleave.front).hits, hk]
  · rw [hrecords]
    exact hother i c hc fun n hn a ha hp => hne n a ((hl.substLeaves_iff h ht).2 ⟨hn, ha, hp⟩)

/-- Departures without a substitution change no record and answer nothing. -/
theorem State.departed_plain (hl : Leavers s l)
    (hplain : ∀ n ∈ l, ∀ a, s.slot n = some a → a.pendAction ≠ some .substitute) :
    (s.departed l).subst = s.subst ∧ (s.departed l).log = s.log ∧ (s.departed l).near = s.near := by
  induction l using List.reverseRecOn with
  | nil => exact ⟨rfl, rfl, rfl⟩
  | append_singleton l n ih =>
    obtain ⟨hinit, hn⟩ := hl.init
    obtain ⟨a, g, ha, hg⟩ := hl.access n (by simp)
    have hslot : (s.departed l).slot n = some a := by rw [(State.departed_gone hinit).slot, if_neg hn, ha]
    have hp := hplain n (by simp) a ha
    obtain ⟨hsubst, hlog, hnear⟩ := ih hinit fun m hm => hplain m (List.mem_append_left _ hm)
    rw [State.departed_append, State.proceed_queued hslot (State.departHit_of_not_substitute hp)]
    exact ⟨hsubst, (State.departLog_of_not_substitute hp).trans hlog, hnear⟩

end

/-! ### Order clearance -/

/-- After a clearance every ORDER slot that stays has a blocker (R62). -/
theorem Cleared.orderOk {s : State} {l : List SlotNo} (h : Lawful s) (hl : Cleared s s.hold l) : OrderOk (s.departed l) := by
  have hgone := State.departed_gone (hl.leavers h (List.append_nil _).symm)
  intro n hn horder
  obtain ⟨hn, hnl⟩ : n ∈ s.hold ∧ n ∉ l := by
    rw [hgone.hold, List.mem_filter] at hn
    simpa using hn
  obtain ⟨a, -, ha, -⟩ := h.held hn
  have hslot : (s.departed l).slot n = some a := by rw [hgone.slot, if_neg hnl, ha]
  obtain ⟨p, r, hhold, hp⟩ := List.eq_append_cons_of_mem hn
  rw [hgone.blocked_iff hhold hp hnl ha]
  by_contra hfree
  refine hnl ((hl.exact n a hn ha).2 ⟨(heldAs_iff hslot _).1 horder, fun m hm hml hb => hfree ⟨m, ?_, hml, hb⟩⟩)
  rwa [ahead_of_split hhold hp] at hm

/-- Settles O26: a clearance is the departure of the slots that it lets go (`Lawful.clearance_eq`). -/
theorem clearanceLaw : Obligations.ClearanceLaw := by
  unfold Obligations.ClearanceLaw
  intro s hslots htransit
  have h : Lawful s := ⟨hslots, htransit⟩
  obtain ⟨l, hl, hclear⟩ := h.clearance_eq
  have hdep : Departure s l := .of_sublist h hl.sublist
  have hgone := State.departed_gone (hdep.leavers h)
  have hmem : ∀ n, n ∈ (s.departed l).hold ↔ n ∈ s.hold ∧ n ∉ l := fun n => by
    rw [hgone.hold, List.mem_filter]
    simp
  have hstay : ∀ n, n ∉ l → (s.departed l).slot n = s.slot n := fun n hn => by rw [hgone.slot, if_neg hn]
  have hreached := Reached.refl (s.departed l)
  rw [hclear]
  dsimp only
  refine ⟨Cleared.orderOk h hl, ?_, ?_, fun n horder => ?_, fun n a hn ha hblocked => ?_, fun n hn => hstay n ((hmem n).1 hn).2,
    fun n a hn hout ha => ?_, ?_, hdep.responds h hreached, hdep.hitsMade_hold h hreached, hdep.logFollows h hreached rfl,
    fun hplain => ?_, hgone.moves.trans ?_⟩
  · rw [hgone.hold]
    exact List.filter_sublist
  · have hsplit := s.hold.length_eq_length_filter_add (fun n => l.contains n)
    rw [filter_contains_of_sublist hl.sublist htransit.holdNodup] at hsplit
    rw [hgone.hold]
    omega
  · have hn : n ∉ l := fun hn => by
      obtain ⟨a, -, ha, -⟩ := h.held (hl.sublist.subset hn)
      have hreason := ((hl.exact n a (hl.sublist.subset hn) ha).1 hn).1
      rw [(heldAs_iff ha _).2 hreason] at horder
      cases horder
    exact ⟨hstay n hn, fun hin => (hmem n).2 ⟨hin, hn⟩⟩
  · obtain ⟨m, hm, hstays, hb⟩ := hblocked
    exact (hmem n).2 ⟨hn, fun hc => ((hl.exact n a hn ha).1 hc).2 m hm ((hmem m).1 hstays).2 hb⟩
  · exact hdep.departs h hreached (by_contra fun hc => hout ((hmem n).2 ⟨hn, hc⟩)) ha
  · have hsame : s.hold.filter (fun n => !(s.departed l).hold.contains n && (s.departed l).slotIs n .queued) =
        l.filter (fun n => (s.departed l).slotIs n .queued) := by
      rw [filter_of_sublist hl.sublist htransit.holdNodup]
      refine List.filter_congr fun n hn => ?_
      rw [Bool.eq_iff_iff]
      simp [hmem, hn]
    rw [hsame]
    exact hdep.forwarded h hreached
  · exact State.departed_plain (hdep.leavers h) fun n hn a ha hp =>
      hplain n a ((hdep.substLeaves_iff h hreached).2 ⟨hn, ha, hp⟩)
  · rfl

end Sys2Proof.Machine
end

section
/-! PROOFS. The order guard's law (R62): every ORDER slot of the hold queue has a blocker ahead of it, at every step. -/

namespace Sys2Proof.Machine

/-! ### The law, of the queue's beginnings -/

/-- What the order guard looks at in an access. -/
def guardView (a : Access) : SlotState × Option HoldReason × Word × Size × AccClass :=
  (a.state, a.holdReason, a.addr, a.size, a.cls)

theorem blocks_congr {s t : State} {m : SlotNo} {a b : Access} (hm : (t.slot m).map guardView = (s.slot m).map guardView)
    (hab : guardView b = guardView a) : Blocks t m b ↔ Blocks s m a := by
  simp only [guardView, Prod.mk.injEq] at hab
  obtain ⟨-, -, haddr, hsize, hcls⟩ := hab
  rw [Blocks, Blocks, haddr, hsize, hcls]
  cases hs : s.slot m with
  | none =>
    rw [hs, Option.map_none, Option.map_eq_none_iff] at hm
    simp [hm]
  | some c =>
    rw [hs] at hm
    obtain ⟨d, hd, hview⟩ := Option.map_eq_some_iff.1 hm
    simp only [guardView, Prod.mk.injEq] at hview
    obtain ⟨hst, -, haddr, hsize, hcls⟩ := hview
    simp [hd, hst, haddr, hsize, hcls]

/-- Every ORDER slot of the hold queue has a blocker ahead of it, and the queue names no FREE slot. -/
structure GuardLaw (s : State) : Prop where
  taken   : ∀ m ∈ s.hold, ∃ a, s.slot m = some a
  blocked : ∀ p n r a, s.hold = p ++ n :: r → s.slot n = some a → a.holdReason = some .order → ∃ m ∈ p, Blocks s m a

theorem Lawful.guardLaw_iff {s : State} (h : Lawful s) : OrderOk s ↔ GuardLaw s := by
  constructor
  · intro hs
    refine ⟨fun m hm => ?_, fun p n r a hhold ha horder => ?_⟩
    · obtain ⟨a, -, ha, -⟩ := h.held hm
      exact ⟨a, ha⟩
    · have hblocked := hs n (by simp [hhold]) ((heldAs_iff ha _).2 horder)
      rwa [blocked_iff ha, ahead_of_split hhold (h.notMem_of_split hhold)] at hblocked
  · intro hs n hn horder
    obtain ⟨a, ha⟩ := hs.taken n hn
    obtain ⟨p, r, hhold, hp⟩ := List.eq_append_cons_of_mem hn
    rw [blocked_iff ha, ahead_of_split hhold hp]
    exact hs.blocked p n r a hhold ha ((heldAs_iff ha _).1 horder)

theorem GuardLaw.ofEmpty {s : State} (h : s.hold = []) : GuardLaw s := by
  refine ⟨fun m hm => ?_, fun p n r a hhold => ?_⟩
  · rw [h] at hm
    cases hm
  · simp [h] at hhold

/-! ### Changes that the law stands -/

section
variable {s t : State} {n : SlotNo}

theorem GuardLaw.congr (h : GuardLaw s) (hhold : t.hold = s.hold)
    (hview : ∀ m ∈ s.hold, (t.slot m).map guardView = (s.slot m).map guardView) : GuardLaw t := by
  have hsame : ∀ m ∈ s.hold, ∀ b, t.slot m = some b → ∃ a, s.slot m = some a ∧ guardView b = guardView a := by
    intro m hm b hb
    have hvm := hview m hm
    rw [hb] at hvm
    obtain ⟨a, ha, hab⟩ := Option.map_eq_some_iff.1 hvm.symm
    exact ⟨a, ha, hab.symm⟩
  refine ⟨fun m hm => ?_, fun p n r b hsplit hb horder => ?_⟩
  · obtain ⟨a, ha⟩ := h.taken m (hhold ▸ hm)
    have hvm := hview m (hhold ▸ hm)
    rw [ha] at hvm
    obtain ⟨b, hb, -⟩ := Option.map_eq_some_iff.1 hvm
    exact ⟨b, hb⟩
  · rw [hhold] at hsplit
    obtain ⟨a, ha, hab⟩ := hsame n (by simp [hsplit]) b hb
    have horder' : a.holdReason = some .order := by
      simp only [guardView, Prod.mk.injEq] at hab
      rw [← hab.2.1]
      exact horder
    obtain ⟨m, hm, hblocks⟩ := h.blocked p n r a hsplit ha horder'
    exact ⟨m, hm, (blocks_congr (hview m (by simp [hsplit, hm])) hab).2 hblocks⟩

theorem GuardLaw.same (h : GuardLaw s) (hst : SameTransit s t) : GuardLaw t :=
  h.congr hst.hold fun m _ => by rw [hst.slot]

/-- A slot outside the hold queue changes. -/
theorem GuardLaw.update (h : GuardLaw s) {x : Option Access} (hn : n ∉ s.hold)
    (hslot : t.slot = Function.update s.slot n x) (hhold : t.hold = s.hold) : GuardLaw t := by
  refine h.congr hhold fun m hm => ?_
  rw [hslot, Function.update_of_ne]
  rintro rfl
  exact hn hm

/-- A slot joins the tail of the hold queue, behind a blocker if it is an ORDER slot. -/
theorem GuardLaw.push (h : GuardLaw s) {b : Access} (hn : n ∉ s.hold) (hslot : t.slot = Function.update s.slot n (some b))
    (hhold : t.hold = s.hold ++ [n]) (hb : b.holdReason = some .order → ∃ m ∈ s.hold, Blocks s m b) : GuardLaw t := by
  have hne : ∀ m ∈ s.hold, m ≠ n := fun m hm he => hn (he ▸ hm)
  have hkeep : ∀ m ∈ s.hold, t.slot m = s.slot m := fun m hm => by rw [hslot, Function.update_of_ne (hne m hm)]
  have hnew : t.slot n = some b := by rw [hslot, Function.update_self]
  have hblocks : ∀ m ∈ s.hold, ∀ a, Blocks t m a ↔ Blocks s m a := fun m hm a =>
    blocks_congr (by rw [hkeep m hm]) rfl
  refine ⟨fun m hm => ?_, fun p x r a hsplit ha horder => ?_⟩
  · rw [hhold] at hm
    rcases List.mem_append.1 hm with hm | hm
    · rw [hkeep m hm]
      exact h.taken m hm
    · exact ⟨b, List.mem_singleton.1 hm ▸ hnew⟩
  · rw [hhold] at hsplit
    rcases List.eq_nil_or_concat r with rfl | ⟨r, y, rfl⟩
    · obtain ⟨hp, hx⟩ := List.append_inj' hsplit rfl
      obtain rfl := List.cons.inj hx |>.1
      obtain rfl : b = a := Option.some.inj (hnew.symm.trans ha)
      obtain ⟨m, hm, hmb⟩ := hb horder
      exact ⟨m, hp ▸ hm, (hblocks m hm _).2 hmb⟩
    · rw [List.concat_eq_append, ← List.cons_append, ← List.append_assoc] at hsplit
      obtain ⟨hp, -⟩ := List.append_inj' hsplit rfl
      have hx : x ∈ s.hold := by simp [hp]
      rw [hkeep x hx] at ha
      obtain ⟨m, hm, hmb⟩ := h.blocked p x r a hp ha horder
      exact ⟨m, hm, (hblocks m (by simp [hp, hm]) a).2 hmb⟩

/-- A held slot with a blocker becomes an ORDER slot. -/
theorem GuardLaw.order (h : GuardLaw s) (hs : Lawful s) (hn : n ∈ s.hold) (hblocked : s.blocked n = true) (p : PendAction) :
    GuardLaw (s.makeOrder n p) := by
  obtain ⟨a, -, ha, hst, -⟩ := hs.held hn
  have hslot : (s.makeOrder n p).slot = Function.update s.slot n (some { a with
      state := .held, holdReason := some .order, holdTimer := none, pendAction := some p }) := by
    rw [State.makeOrder, State.modSlot_slot, ha]
    rfl
  have hblocks : ∀ m b, Blocks (s.makeOrder n p) m b ↔ Blocks s m b := by
    intro m b
    by_cases hm : m = n
    · subst hm
      simp [Blocks, hslot, ha, hst]
    · rw [Blocks, Blocks, hslot, Function.update_of_ne hm]
  refine ⟨fun m hm => ?_, fun q x r b hsplit hb horder => ?_⟩
  · by_cases hmn : m = n
    · exact ⟨_, by rw [hmn, hslot, Function.update_self]⟩
    · rw [hslot, Function.update_of_ne hmn]
      exact h.taken m hm
  · by_cases hx : x = n
    · subst hx
      obtain ⟨m, hm, hmb⟩ := (blocked_iff ha).1 hblocked
      rw [ahead_of_split (s := s) hsplit (hs.notMem_of_split hsplit)] at hm
      rw [hslot, Function.update_self] at hb
      refine ⟨m, hm, (hblocks m b).2 ?_⟩
      obtain rfl := Option.some.inj hb
      exact hmb
    · rw [hslot, Function.update_of_ne hx] at hb
      obtain ⟨m, hm, hmb⟩ := h.blocked q x r b hsplit hb horder
      exact ⟨m, hm, (hblocks m b).2 hmb⟩

end

/-! ### Acceptance -/

theorem Loose.notMem {s : State} {n : SlotNo} {a : Access} (h : Loose s n a) : n ∉ s.hold := fun hm => by
  obtain ⟨b, hb, -⟩ := (h.hold.mem_iff n).1 hm
  rw [Function.update_self] at hb
  cases hb

/-- The laws that the order guard's law is kept with. -/
structure GuardLawful (s : State) : Prop where
  lawful : Lawful s
  law    : GuardLaw s

theorem GuardLaw.notMem {s : State} {n : SlotNo} (h : GuardLaw s) (hn : s.slot n = none) : n ∉ s.hold := fun hm => by
  obtain ⟨a, ha⟩ := h.taken n hm
  rw [hn] at ha
  cases ha

theorem GuardLaw.record {s : State} {n : SlotNo} {a : Access} (h : GuardLaw s) (ha : s.slot n = some a) (hn : n ∉ s.hold)
    (req : NearRequest) (fired : List EntryNo) (owner : Option EntryNo) (act : Option Action) :
    GuardLaw (s.recordJudged n req fired owner act) := by
  unfold State.recordJudged
  split
  · split_ifs
    · rename_i e _
      obtain ⟨q, hq⟩ := s.makeRecord_slot n (newRecord s n req fired e (dispOfAction act)) ha
      exact h.update hn hq (by simp)
    · exact h
  · exact h

/-- An access is made an ORDER access at its acceptance only behind a blocker (R60). -/
theorem guardLawful_acceptKept : AcceptKept GuardLawful (fun s n => Placing s n ∧ GuardLaw s) where
  same hs hst := ⟨hs.lawful.same hst.transit, hs.law.same hst.transit⟩
  slot hs := lawful_slotKept.slot hs.1
  hit hs ha hk := ⟨lawful_slotKept.hit hs.1 ha hk, hs.2.same ⟨rfl, rfl, rfl, rfl⟩⟩
  answer o r d hs := by
    obtain ⟨hp, hlaw⟩ := hs
    refine ⟨lawful_slotKept.answer o r d hp, ?_⟩
    obtain ⟨a, h, -⟩ := hp
    obtain ⟨g, hg⟩ := Option.isSome_iff_exists.1 h.tag
    rw [State.closeAnswer_eq o r d h.slot hg]
    exact hlaw.update h.notMem (slot_eq_update rfl) rfl
  marked m hs := ⟨lawful_slotKept.marked m hs.1, hs.2.same ⟨by simp, by simp, by simp, by simp⟩⟩
  forward {s n} hs := by
    obtain ⟨hp, hlaw⟩ := hs
    refine ⟨lawful_slotKept.forward hp, ?_⟩
    obtain ⟨a, h, -⟩ := hp
    rw [State.forwardSlot_eq h.slot]
    exact hlaw.update h.notMem (slot_eq_update rfl) rfl
  judge j hs := ⟨lawful_slotKept.judge j hs.lawful, hs.law.same ⟨by simp, by simp, by simp, by simp⟩⟩
  misaligned req hs hfree hlive := by
    refine ⟨lawful_slotKept.misaligned req hs.lawful hfree hlive, ?_⟩
    rw [State.acceptMisaligned_eq]
    exact hs.law.update (hs.law.notMem hfree) (slot_eq_update rfl) rfl
  take {s n} req d k fired owner act hs hfree hlive hd := by
    refine ⟨lawful_slotKept.take req d k fired owner act hs.lawful hfree hlive hd, ?_⟩
    have hslot := s.takeSlot_slot n (newAccess req k d owner)
    have hn := hs.law.notMem hfree
    exact (hs.law.update hn hslot rfl).record (by rw [hslot, Function.update_self]) hn req fired owner act
  holdOrder {s n} p hs hb := by
    obtain ⟨hp, hlaw⟩ := hs
    refine ⟨lawful_slotKept.holdOrder p hp hb, ?_⟩
    obtain ⟨a, h, -⟩ := hp
    rw [State.blockedAtPlacement, h.slot, Option.any_some, blockedBy_iff] at hb
    rw [State.holdForOrder_eq p h.slot]
    exact hlaw.push h.notMem (slot_eq_update rfl) rfl fun _ => hb
  decision {s n r} hr hs := by
    obtain ⟨hp, hlaw⟩ := hs
    refine ⟨lawful_slotKept.decision hr hp, ?_⟩
    obtain ⟨a, h, -⟩ := hp
    obtain ⟨g, hg⟩ := Option.isSome_iff_exists.1 h.tag
    rw [State.holdForDecision_eq r h.slot hg]
    exact hlaw.push h.notMem (slot_eq_update rfl) rfl fun ho => absurd (Option.some.inj ho) hr

/-! ### The other events -/

theorem Lawful.notMem_of_state {s : State} (h : Lawful s) {n : SlotNo} {a : Access} (ha : s.slot n = some a)
    (hst : a.state ≠ .held) : n ∉ s.hold := fun hn => by
  obtain ⟨b, -, hb, hheld, -⟩ := h.held hn
  rw [ha] at hb
  cases hb
  exact hst hheld

theorem GuardLaw.deliver {s : State} (h : GuardLaw s) (hs : Lawful s) : GuardLaw s.deliver := by
  obtain ⟨-, -, hr, -⟩ := (transitOk_iff s).1 hs.transit
  unfold State.deliver
  split
  · exact h
  · rename_i e rest he
    rw [he] at hr
    cases hslot : e.slot with
    | none => exact h.congr rfl fun m _ => rfl
    | some n =>
      rw [List.filterMap_cons_some hslot] at hr
      obtain ⟨a, ha, hst⟩ := (hr.mem_iff n).1 List.mem_cons_self
      exact h.update (hs.notMem_of_state ha (by simp [hst])) (State.setSlot_slot _ n none) rfl

theorem GuardLaw.issueForward {s : State} (h : GuardLaw s) (hs : Lawful s) : GuardLaw s.issueForward := by
  obtain ⟨-, hf, -, -⟩ := (transitOk_iff s).1 hs.transit
  cases hq : s.far.forward with
  | nil => simpa [State.issueForward, hq] using h
  | cons n rest =>
    rw [hq] at hf
    obtain ⟨a, ha, hst⟩ := (hf.mem_iff n).1 List.mem_cons_self
    rw [State.issueForward_eq hq ha]
    exact h.update (hs.notMem_of_state ha (by simp [hst])) (slot_eq_update rfl) rfl

theorem GuardLaw.farToSlot {s : State} (h : GuardLaw s) (hs : Lawful s) (n : SlotNo) (r : FarResponse) :
    GuardLaw (s.farToSlot n r) := by
  have hraise : GuardLaw (s.raise (.fs r.tag)) := h.same (SameCore.raise s _).transit
  unfold State.farToSlot
  cases ha : s.slot n with
  | none => exact hraise
  | some a =>
    cases hst : a.state with
    | issued =>
      have hn := hs.notMem_of_state ha (by simp [hst])
      obtain ⟨g, hg⟩ := Option.isSome_iff_exists.1 (hs.loose_issued ha hst).tag
      simp only [hst, State.completeSlot]
      split <;>
      · rw [State.closeAnswer_eq _ _ _ ha hg]
        exact h.update hn (slot_eq_update rfl) rfl
    | orphan => simpa only [hst] using h.update (hs.notMem_of_state ha (by simp [hst])) (s.setSlot_slot n none) rfl
    | held | queued | answering => simpa only [hst] using hraise

theorem GuardLaw.timeOut {s : State} {n : SlotNo} (h : GuardLaw s) (hs : Lawful s) (hdue : s.farExpiryDue n = true) :
    GuardLaw (s.timeOut n) := by
  obtain ⟨a, ha, hdue⟩ := (Option.any_eq_true ..).1 hdue
  rw [Bool.and_eq_true, beq_iff_eq] at hdue
  obtain ⟨g, hg⟩ := Option.isSome_iff_exists.1 (hs.loose_issued ha hdue.1).tag
  rw [State.timeOut_eq ha hg]
  exact h.update (hs.notMem_of_state ha (by simp [hdue.1])) (slot_eq_update rfl) rfl

theorem GuardLaw.nearReset {s : State} (h : GuardLaw s) : GuardLaw s.assertNearReset := by
  cases hreset : s.near.reset with
  | true => simpa [State.assertNearReset, hreset] using h
  | false => exact .ofEmpty (by simp [State.assertNearReset, hreset])

theorem GuardLawful.farResetStep {acc : State × Nat × Nat} (h : GuardLawful acc.1) (n : SlotNo) :
    GuardLawful (farResetStep acc n).1 := by
  obtain ⟨hs, hlaw⟩ := h
  refine ⟨hs.farResetStep n, ?_⟩
  unfold Machine.farResetStep
  cases ha : acc.1.slot n with
  | none => exact hlaw
  | some a =>
    cases hst : a.state with
    | issued =>
      obtain ⟨g, hg⟩ := Option.isSome_iff_exists.1 (hs.loose_issued ha hst).tag
      simp only [hst]
      rw [State.abortIssued_eq ha hg]
      exact hlaw.update (hs.notMem_of_state ha (by simp [hst])) (slot_eq_update rfl) rfl
    | orphan => simpa only [hst] using hlaw.update (hs.notMem_of_state ha (by simp [hst])) (acc.1.setSlot_slot n none) rfl
    | held | queued | answering => simpa only [hst] using hlaw

/-- Order clearance leaves no ORDER slot without a blocker, however the queue stood (R62). -/
theorem Lawful.clearance_guardLawful {s : State} (h : Lawful s) : GuardLawful s.clearance.1 := by
  have ht := lawful_slotKept.clearance h
  obtain ⟨l, hl, hclear⟩ := h.clearance_eq
  refine ⟨ht, ht.guardLaw_iff.1 ?_⟩
  rw [hclear]
  exact Cleared.orderOk h hl

theorem Lawful.releaseAll_hold {s : State} (h : Lawful s) : s.releaseAll.1.hold = [] := by
  obtain ⟨rel, hrel, hall⟩ := h.releaseAll_eq
  rw [hall]
  dsimp only
  have hgone := State.departed_gone (h.leavers_releaseAll hrel)
  rw [hgone.hold]
  refine List.filter_eq_nil_iff.2 fun n hn => ?_
  by_cases hr : n ∈ rel <;> simp [hn, hr]

theorem GuardLawful.expire {s : State} {n : SlotNo} (h : GuardLawful s) (hdue : s.expiryDue n = true) :
    GuardLawful (s.expire n) := by
  obtain ⟨hs, hlaw⟩ := h
  have hin := inHold_of_expiryDue hdue
  have hraised : ∀ {u}, Lawful u → Lawful (u.raise (.ex n)) := fun hu => hu.same (SameCore.raise _ _).transit
  unfold State.expire
  split
  · exact (hraised (lawful_slotKept.answerHeld _ _ _ hs hin)).clearance_guardLawful
  · split_ifs with hb
    · obtain ⟨a, ha, hdue⟩ := (Option.any_eq_true ..).1 hdue
      rw [Bool.and_eq_true, beq_iff_eq] at hdue
      have hn : n ∈ s.hold := (hs.transit.holdExact n).2 ((slotIs_iff s n _).2 ⟨a, ha, hdue.1⟩)
      have hmark : SameTransit (s.makeOrder n .forward) ((s.makeOrder n .forward).markRecord n .releasedByExpiry) :=
        ⟨by simp, by simp, by simp, by simp⟩
      exact ⟨hraised (lawful_slotKept.mark n _ (lawful_slotKept.order _ hs hin)),
        ((hlaw.order hs hn hb .forward).same hmark).same (SameCore.raise _ _).transit⟩
    · exact (hraised (lawful_slotKept.mark n _ (lawful_slotKept.release hs hin))).clearance_guardLawful

/-- `HR` releases a held slot, with one order clearance, or leaves the state as it is (R76, R77). -/
theorem cmdHr_cases (o : Operands) (s : State) :
    (cmdHr o s).1 = s ∨ ∃ n, InHold s n ∧ (cmdHr o s).1 = (s.release n).clearance.1 := by
  unfold cmdHr
  split
  · exact .inl rfl
  · rename_i n _
    split_ifs with hheld
    · exact .inl rfl
    · exact .inl rfl
    · exact .inl rfl
    · exact .inr ⟨n, inHold_of_slotIs (by simpa using hheld), rfl⟩
  · split
    · exact .inl rfl
    · rename_i n hold
      exact .inr ⟨n, inHold_of_heldForDecision (List.find?_some hold), rfl⟩

/-- `HA` answers a held slot, with one order clearance, or leaves the state as it is (R78, R79). -/
theorem cmdHa_cases (o : Operands) (s : State) :
    (cmdHa o s).1 = s ∨ ∃ n d, InHold s n ∧ (cmdHa o s).1 = (s.answerHeld n .answered .ok d).clearance.1 := by
  unfold cmdHa
  split
  · exact .inl rfl
  · rename_i n _ _
    split
    · exact .inl rfl
    · rename_i a hslot
      obtain ⟨ha, hst⟩ := Option.filter_eq_some_iff.1 hslot
      split
      · exact .inl rfl
      · rename_i d _
        exact .inr ⟨n, d, ⟨a, ha, .inl (beq_iff_eq.1 hst)⟩, rfl⟩

/-- `HF` answers a held slot, with one order clearance, or leaves the state as it is (R80). -/
theorem cmdHf_cases (o : Operands) (s : State) :
    (cmdHf o s).1 = s ∨ ∃ n, InHold s n ∧ (cmdHf o s).1 = (s.answerHeld n .failed .denied none).clearance.1 := by
  unfold cmdHf
  split
  · exact .inl rfl
  · rename_i n _
    split_ifs with hheld
    · exact .inr ⟨n, inHold_of_slotIs hheld, rfl⟩
    · exact .inl rfl

theorem GuardLaw.cmdRa {s : State} (h : GuardLaw s) (hs : Lawful s) (o : Operands) : GuardLaw (cmdRa o s).1 := by
  unfold Machine.cmdRa
  split
  · exact h
  · exact .ofEmpty hs.releaseAll_hold

theorem GuardLaw.cmdCl {s : State} (h : GuardLaw s) (hs : Lawful s) (o : Operands) : GuardLaw (cmdCl o s).1 := by
  unfold Machine.cmdCl
  split
  · exact h
  · refine .ofEmpty ?_
    rw [← hs.clearRecords.releaseAll_hold]
    simp

theorem GuardLawful.verb {s : State} (h : GuardLawful s) {v : Verb} (src : Source) (o : Operands) (hv : leavesCore v = false) :
    GuardLawful (verbRule v src o s).1 := by
  refine ⟨lawful_kept.verb v src o hv h.lawful, ?_⟩
  obtain ⟨hs, hlaw⟩ := h
  cases ht : leavesTransit v with
  | true => exact hlaw.same (verbRule_sameTransit ht src o _)
  | false =>
    obtain rfl | rfl | rfl | rfl | rfl | rfl := verb_cases hv ht
    · unfold verbRule
      dsimp only
      unfold cmdFr
      split
      · exact hlaw
      · exact (farReset_kept (P := GuardLawful) (fun hu hst => ⟨hu.lawful.same hst.transit, hu.law.same hst.transit⟩)
          (fun n hu => hu.farResetStep n) ⟨hs, hlaw⟩).law
    · rcases cmdHr_cases o s with hr | ⟨n, hn, hr⟩ <;> rw [verbRule, hr]
      · exact hlaw
      · exact (lawful_slotKept.release hs hn).clearance_guardLawful.law
    · rcases cmdHa_cases o s with hr | ⟨n, d, hn, hr⟩ <;> rw [verbRule, hr]
      · exact hlaw
      · exact (lawful_slotKept.answerHeld _ _ _ hs hn).clearance_guardLawful.law
    · rcases cmdHf_cases o s with hr | ⟨n, hn, hr⟩ <;> rw [verbRule, hr]
      · exact hlaw
      · exact (lawful_slotKept.answerHeld _ _ _ hs hn).clearance_guardLawful.law
    · exact hlaw.cmdRa hs o
    · exact hlaw.cmdCl hs o

theorem guardLawful_kept : Kept GuardLawful where
  core hs hst := ⟨hs.lawful.same hst.transit, hs.law.same hst.transit⟩
  powerOn {s} _ := ⟨.powerOn s, .ofEmpty rfl⟩
  accept req hs hfree hlive := guardLawful_acceptKept.accept req hs hfree hlive
  deliver hs := ⟨hs.lawful.deliver, hs.law.deliver hs.lawful⟩
  issue hs := ⟨hs.lawful.issueForward, hs.law.issueForward hs.lawful⟩
  far n r hs := ⟨hs.lawful.farToSlot n r, hs.law.farToSlot hs.lawful n r⟩
  tick {s} hs := by
    refine ⟨hs.lawful.tick, hs.law.congr (by simp) fun m _ => ?_⟩
    rw [State.slot_tickAll, Option.map_map]
    rfl
  timeOut hs hdue := ⟨hs.lawful.timeOut hdue, hs.law.timeOut hs.lawful hdue⟩
  expire hs hdue := hs.expire hdue
  nearReset hs := ⟨hs.lawful.nearReset, hs.law.nearReset⟩
  trigger hs := ⟨hs.lawful.same ⟨by simp, by simp, by simp, by simp⟩, hs.law.same ⟨by simp, by simp, by simp, by simp⟩⟩
  verb v src o hv hs := hs.verb src o hv
  wipe hs := ⟨hs.lawful.same ⟨rfl, rfl, rfl, rfl⟩, hs.law.same ⟨rfl, rfl, rfl, rfl⟩⟩

/-- Settles O57: the order guard's law, with the laws of the transit table, is kept by each operation
(`guardLawful_kept`). -/
theorem stepKeepsOrder : Obligations.StepKeepsOrder := by
  unfold Obligations.StepKeepsOrder
  intro s t hslots htransit horder hstep
  have hs : Lawful s := ⟨hslots, htransit⟩
  have ht := guardLawful_kept.step ⟨hs, hs.guardLaw_iff.1 horder⟩ hstep
  exact ht.lawful.guardLaw_iff.2 ht.law

end Sys2Proof.Machine
end

section
/-! PROOFS. The verbs of the watch table, the substitution records, the log, the cursor and the parameters: what their operands
say, and what an accepted line of theirs does. -/

namespace Sys2Proof.Machine

/-! ### Readers of short operand forms -/

theorem readNone_eq_some_iff (o : Operands) (u : Unit) : readNone o = some u ↔ o = { pos := [], kws := [] } := by
  obtain ⟨pos, kws⟩ := o
  cases pos <;> cases kws <;> simp [readNone]

theorem reads_readNone_iff (ops : List Token) : (reads ops readNone).isSome = true ↔ ops = [] := by
  rw [Option.isSome_iff_exists]
  simp only [reads_eq_some_iff, readNone_eq_some_iff, exists_eq_right, exists_const, readOperands_eq_empty_iff]

/-- A line without operands is read so (R164). -/
theorem readNone_of_reads {ops : List Token} (h : (reads ops readNone).isSome = true) :
    ∃ o, readOperands ops = some o ∧ readNone o = some () := by
  obtain ⟨u, hu⟩ := Option.isSome_iff_exists.1 h
  exact (reads_eq_some_iff ops _ u).1 hu

theorem readWr_eq_some_iff (o : Operands) (n : EntryNo) (v : Count) :
    readWr o = some (n, v) ↔ DigitIs o n.val ∧ ∃ w, o.kws = [('R', w)] ∧ hexNum w = some v.toNat := by
  obtain ⟨pos, kws⟩ := o
  unfold readWr DigitIs
  split
  · rename_i p w hpos hkws
    dsimp only at hpos hkws
    subst hpos hkws
    have hval : ((hexBelow 65536 w).map (BitVec.ofNat 16) = some v) ↔ hexNum w = some v.toNat := hexBelow_map_iff w v
    simp only [List.cons.injEq, and_true, Prod.mk.injEq, true_and, exists_eq_left', ← hval, ← oneDigit_eq_some_iff]
    cases oneDigit 16 p <;> cases hexBelow 65536 w <;> simp
  · rename_i hno
    simp only [reduceCtorEq, false_iff]
    rintro ⟨⟨t, hpos, -⟩, w, hkws, -⟩
    exact hno t w hpos hkws

theorem reads_readWr_iff (ops : List Token) (n : EntryNo) (v : Count) :
    reads ops readWr = some (n, v) ↔ WrSays ops n v := by
  simp only [reads_eq_some_iff, readWr_eq_some_iff, WrSays]
  exact ⟨fun ⟨o, hops, hn, w, hk, hw⟩ => ⟨o, w, hops, hn, hk, hw⟩, fun ⟨o, w, hops, hn, hk, hw⟩ => ⟨o, hops, hn, w, hk, hw⟩⟩

theorem readLm_eq_some_iff (o : Operands) (m : Option LogMode) : readLm o = some m ↔ o.kws = [] ∧
    o.pos = (match m with | none => [] | some .wrap => [['W']] | some .stop => [['S']]) := by
  obtain ⟨pos, kws⟩ := o
  unfold readLm
  split
  · rename_i hpos hkws
    dsimp only at hpos hkws
    subst hpos hkws
    rcases m with - | (- | -) <;> simp
  · rename_i hpos hkws
    dsimp only at hpos hkws
    subst hpos hkws
    rcases m with - | (- | -) <;> simp
  · rename_i hpos hkws
    dsimp only at hpos hkws
    subst hpos hkws
    rcases m with - | (- | -) <;> simp
  · rename_i h1 h2 h3
    dsimp only at h1 h2 h3
    simp only [reduceCtorEq, false_iff, not_and]
    rintro rfl hp
    rcases m with - | (- | -)
    · exact h1 hp rfl
    · exact h2 hp rfl
    · exact h3 hp rfl

theorem reads_readLm_iff (ops : List Token) (m : Option LogMode) : reads ops readLm = some m ↔ LmSays ops m := by
  simp only [reads_eq_some_iff, readLm_eq_some_iff]
  rcases m with - | (- | -)
  · rw [LmSays, ← readOperands_eq_empty_iff]
    constructor
    · rintro ⟨⟨pos, kws⟩, hops, hk, hp⟩
      dsimp only at hk hp
      rw [hops, hk, hp]
    · exact fun h => ⟨_, h, rfl, rfl⟩
  · rfl
  · rfl

/-! ### Printed fields -/

theorem orDash_eq {α : Type} (f : α → Text) (o : Option α) : orDash f o = dashed (o.map f) := by cases o <;> rfl

theorem entryList_eq (l : List EntryNo) : entryList l = dashedList (l.map (fun e => hexChar e.val)) := by
  cases l with
  | nil => rfl
  | cons e l => exact (if_neg (by simp)).symm

theorem flagText_eq (b : Bool) : flagText b = [if b then '1' else '0'] := by cases b <;> rfl

theorem classLetters_eq (c : ClassSet) : classLetters c = dashedList
    ((if c.fetch then ['F'] else []) ++ (if c.load then ['L'] else []) ++ (if c.store then ['S'] else [])) := by
  obtain ⟨f, l, s⟩ := c
  cases f <;> cases l <;> cases s <;> rfl

/-- The report of a capture record, field by field (R113). -/
theorem recordReport_eq (c : CaptureRecord) : recordReport c = lrFields c := by
  unfold recordReport lrFields statusWord CaptureRecord.isOpen
  simp only [orDash_eq, entryList_eq]
  cases c.status <;> rfl

/-- The seven parameters, field by field (R142). -/
theorem paramFields_eq (p : Params) : paramFields p = spFields p := by
  rw [paramFields, spFields, flagText_eq]
  cases p.policy <;> cases p.parity <;> rfl

/-! ### Accepted lines -/

/-- A verb that answers on one line, in a rule that leaves the operating state and the ports as they are. -/
theorem exec_answers {s u : State} {src : Source} {v : Verb} {ops : List Token} {fs : List Text} (h : Serves s src)
    (hr : runVerb v src ops s = (u, answerFields fs)) (hc : u.console = s.console) (hp : u.preload = s.preload)
    (hop : u.ctrl.op = s.ctrl.op) :
    ∃ t, exec (verbRow v src ops) s = .next t ∧ t = { u with console := t.console, preload := t.preload } ∧
      Accepted s t src v ops [] [fields '=' fs] :=
  exec_accepted (ns := []) h hr hc hp fun hsrc => hop.trans (gated_of_serves_preload h hsrc)

section
variable {s : State} {src : Source} {ops : List Token} (hs : Serves s src)
include hs

/-- A line that gives one watch entry a new content (R46 to R52). -/
theorem exec_programs {v : Verb} {n : EntryNo} {e : WatchEntry} {w : Text} (hr : runVerb v src ops s = s.programEntry n e)
    (hw : entryStateWord e.state = w) :
    ∃ t, exec (verbRow v src ops) s = .next t ∧
      t = { s with watch := s.watch.set n e, console := t.console, preload := t.preload } ∧
      Accepted s t src v ops [] [fields '=' [[hexChar n.val], w]] :=
  hw ▸ exec_answers (u := s.setEntry n e) (fs := [digit n, entryStateWord e.state]) hs hr rfl rfl rfl

end

/-! ### `WS` (R46 to R48) -/

theorem runVerb_ws {ops : List Token} {n : EntryNo} {e : WatchEntry} (src : Source) (s : State)
    (h : reads ops readWs = some (n, e)) :
    runVerb .ws src ops s = if (s.entry n).state = .armed then (s, .refused .bz) else s.programEntry n e := by
  obtain ⟨o, hops, hn⟩ := (reads_eq_some_iff ops _ _).1 h
  simp only [runVerb_of_read hops, verbRule, cmdWs, hn]

theorem WsSays.action_isSome {o : Operands} {n : EntryNo} {e : WatchEntry} (h : WsSays o n e) : e.action.isSome = true := by
  have ha := h.action
  unfold Says at ha
  split at ha
  · exact ha.elim
  · rcases ha with ⟨-, ha⟩ | ⟨-, ha⟩ | ⟨-, ha⟩ | ⟨-, ha⟩ | ⟨-, ha⟩ <;> rw [ha] <;> rfl

theorem reads_readWs_iff (ops : List Token) (n : EntryNo) (e : WatchEntry) :
    reads ops readWs = some (n, e) ↔ ∃ o, readOperands ops = some o ∧ WsSays o n e ∧ WsFits n e := by
  simp only [reads_eq_some_iff, readWs_eq_some_iff]

/-- Settles O30: the operands by `reads_readWs_iff`, the line by its rule `runVerb_ws`. -/
theorem wsSetsEntry : Obligations.WsSetsEntry := by
  unfold Obligations.WsSetsEntry
  refine ⟨reads_readWs_iff, fun s src ops n e hs h => ?_⟩
  obtain ⟨o, hops, hsays, hfits⟩ := (reads_readWs_iff ops n e).1 h
  obtain ⟨hwindow, hcond, hrecord, hsource⟩ := hfits
  have hrun := runVerb_ws src s h
  refine ⟨fun o' ho' => ?_, hwindow, hrecord, hsays.action_isSome, hcond, hsource, fun hne => ?_, fun harmed => ?_⟩
  · obtain rfl : o = o' := Option.some.inj (hops.symm.trans ho')
    exact hsays
  · rw [if_neg hne] at hrun
    exact exec_programs (v := .ws) hs hrun rfl
  · rw [if_pos harmed] at hrun
    exact exec_refused (v := .ws) hs hrun

/-! ### `WR`, `WA`, `WD` and `WX` (R49 to R52) -/

section
variable {s : State} {src : Source} {ops : List Token} {n : EntryNo}

theorem runVerb_wr {v : Count} (h : reads ops readWr = some (n, v)) (src : Source) (s : State) :
    runVerb .wr src ops s = match (s.entry n).state with
      | .off => (s, .refused .bz)
      | .armed => s.programEntry n { s.entry n with pendingReload := some v }
      | .dormant => s.programEntry n { s.entry n with reload := v, remaining := v, pendingReload := none }
      | .spent => s.programEntry n { s.entry n with reload := v, remaining := v, pendingReload := none } := by
  obtain ⟨o, hops, hn⟩ := (reads_eq_some_iff ops _ _).1 h
  cases hst : (s.entry n).state <;> simp only [runVerb_of_read hops, verbRule, cmdWr, hn, hst]

theorem runVerb_wa (h : reads ops (readDigit 16) = some n) (src : Source) (s : State) :
    runVerb .wa src ops s = match (s.entry n).state with
      | .dormant => s.programEntry n { s.entry n with state := .armed }
      | .spent => s.programEntry n { (s.entry n).applyPending.reloaded with state := .armed }
      | .off => (s, .refused .bz)
      | .armed => (s, .refused .bz) := by
  obtain ⟨o, hops, hn⟩ := (reads_eq_some_iff ops _ _).1 h
  cases hst : (s.entry n).state <;> simp only [runVerb_of_read hops, verbRule, cmdWa, hn, hst]

theorem runVerb_wd (h : reads ops (readDigit 16) = some n) (src : Source) (s : State) :
    runVerb .wd src ops s = if (s.entry n).state = .armed then s.programEntry n { s.entry n with state := .dormant }
      else (s, .refused .bz) := by
  obtain ⟨o, hops, hn⟩ := (reads_eq_some_iff ops _ _).1 h
  simp only [runVerb_of_read hops, verbRule, cmdWd, hn]

theorem runVerb_wx (h : reads ops (readDigit 16) = some n) (src : Source) (s : State) :
    runVerb .wx src ops s = s.programEntry n WatchEntry.offValue := by
  obtain ⟨o, hops, hn⟩ := (reads_eq_some_iff ops _ _).1 h
  simp only [runVerb_of_read hops, verbRule, cmdWx, hn]

end

/-- Settles O31: each verb's rule by the state of the entry, and the operands by `reads_readWr_iff` and
`reads_readDigit_iff`. -/
theorem entryVerbs : Obligations.EntryVerbs := by
  unfold Obligations.EntryVerbs
  intro s src ops n hs
  refine ⟨reads_readWr_iff ops n, reads_readDigit_iff ops n, fun v h => ?_, fun h => ?_⟩
  · have hrun := runVerb_wr h src s
    refine ⟨fun hst => ?off, fun hst => ?armed, fun hst => ?other⟩
    case off =>
      rw [hst] at hrun
      exact exec_refused (v := .wr) hs hrun
    case armed =>
      rw [hst] at hrun
      exact exec_programs (v := .wr) hs hrun (congrArg entryStateWord hst)
    case other =>
      rcases hst with hst | hst <;>
      · rw [hst] at hrun
        exact exec_programs (v := .wr) hs hrun rfl
  · have hwa := runVerb_wa h src s
    have hwd := runVerb_wd h src s
    refine ⟨fun hst => ?dormant, fun hst => ?spent, fun hst => ?refused, fun hst => ?disarm, fun hst => ?notArmed,
      exec_programs (v := .wx) hs (runVerb_wx h src s) rfl⟩
    case dormant =>
      rw [hst] at hwa
      exact exec_programs (v := .wa) hs hwa rfl
    case spent =>
      rw [hst] at hwa
      exact exec_programs (v := .wa) hs hwa rfl
    case refused =>
      rcases hst with hst | hst <;>
      · rw [hst] at hwa
        exact exec_refused (v := .wa) hs hwa
    case disarm =>
      rw [if_pos hst] at hwd
      exact exec_programs (v := .wd) hs hwd rfl
    case notArmed =>
      rw [if_neg hst] at hwd
      exact exec_refused (v := .wd) hs hwd

/-! ### `SS` and `SX` (R96, R97) -/

theorem reads_readSs_iff (ops : List Token) (n : RecordNo) (r : SubstRecord) :
    reads ops readSs = some (n, r) ↔ ∃ o, readOperands ops = some o ∧ SsSays o n r := by
  simp only [reads_eq_some_iff, readSs_eq_some_iff]

theorem runVerb_ss {ops : List Token} {n : RecordNo} {r : SubstRecord} (h : reads ops readSs = some (n, r)) (src : Source)
    (s : State) : runVerb .ss src ops s = (s.setRecord n r, answerFields [digit n]) := by
  obtain ⟨o, hops, hn⟩ := (reads_eq_some_iff ops _ _).1 h
  simp only [runVerb_of_read hops, verbRule, cmdSs, hn]

theorem runVerb_sx {ops : List Token} {n : RecordNo} (h : reads ops (readDigit 8) = some n) (src : Source) (s : State) :
    runVerb .sx src ops s = (s.setRecord n { s.record n with valid := false }, answerFields [digit n]) := by
  obtain ⟨o, hops, hn⟩ := (reads_eq_some_iff ops _ _).1 h
  simp only [runVerb_of_read hops, verbRule, cmdSx, hn]

/-- Settles O35: the operands by `reads_readSs_iff` and `reads_readDigit_iff`, the lines by the rules of the two verbs. -/
theorem recordVerbs : Obligations.RecordVerbs := by
  unfold Obligations.RecordVerbs
  refine ⟨reads_readSs_iff, fun s src ops n hs => ⟨fun r h => ⟨fun o' ho' => ?_, ?_⟩, reads_readDigit_iff ops n, fun h => ?_⟩⟩
  · obtain ⟨o, hops, hsays⟩ := (reads_readSs_iff ops n r).1 h
    obtain rfl : o = o' := Option.some.inj (hops.symm.trans ho')
    exact hsays
  · exact exec_answers (v := .ss) hs (runVerb_ss h src s) rfl rfl rfl
  · exact exec_answers (v := .sx) hs (runVerb_sx h src s) rfl rfl rfl

/-! ### `LN`, `LC` and `LM` (R112, R114 to R116) -/

section
variable {ops : List Token} (h : (reads ops readNone).isSome = true) (src : Source) (s : State)
include h

theorem runVerb_ln_empty (hlog : s.log.records = []) : runVerb .ln src ops s = (s, .refused .em) := by
  obtain ⟨o, hops, hnone⟩ := readNone_of_reads h
  simp only [runVerb_of_read hops, verbRule, cmdLn, hnone, hlog]

theorem runVerb_ln {c : CaptureRecord} {rest : List CaptureRecord} (hlog : s.log.records = c :: rest) :
    runVerb .ln src ops s = if c.isOpen then (s, .refused .op)
      else ({ s with log := { s.log with records := rest } }, answerFields (lrFields c)) := by
  obtain ⟨o, hops, hnone⟩ := readNone_of_reads h
  simp only [runVerb_of_read hops, verbRule, cmdLn, hnone, hlog, recordReport_eq, Log.dropOldest, List.tail_cons]

theorem runVerb_lc : runVerb .lc src ops s =
    ({ s with log := { s.log with records := s.log.records.filter CaptureRecord.isOpen, lost := 0 } },
      answerFields [hexPlain (s.log.records.length - (s.log.records.filter CaptureRecord.isOpen).length)]) := by
  obtain ⟨o, hops, hnone⟩ := readNone_of_reads h
  have hcount : s.log.records.countP (fun r => !r.isOpen) =
      s.log.records.length - (s.log.records.filter CaptureRecord.isOpen).length := by
    have hsplit := s.log.records.length_eq_length_filter_add CaptureRecord.isOpen
    rw [List.countP_eq_length_filter]
    omega
  simp only [runVerb_of_read hops, verbRule, cmdLc, hnone, hcount]

end

theorem runVerb_lm {ops : List Token} {m : Option LogMode} (h : reads ops readLm = some m) (src : Source) (s : State) :
    runVerb .lm src ops s =
      ({ s with log := { s.log with mode := m.getD s.log.mode } }, answerFields [logModeLetter (m.getD s.log.mode)]) := by
  obtain ⟨o, hops, hm⟩ := (reads_eq_some_iff ops _ _).1 h
  cases m <;> simp only [runVerb_of_read hops, verbRule, cmdLm, hm] <;> rfl

theorem CaptureRecord.isOpen_iff (c : CaptureRecord) : c.isOpen = true ↔ ∃ m, c.status = .opened m := by
  unfold CaptureRecord.isOpen
  cases c.status <;> simp

/-- Settles O36: the three rules, by what stands first in the log and by the mode asked for. -/
theorem logVerbs : Obligations.LogVerbs := by
  unfold Obligations.LogVerbs
  refine ⟨fun s src ops hs h => ⟨fun hlog => ?empty, fun c rest m hlog hst => ?opened, fun c rest o r d hlog hst => ?closed, ?lc⟩,
    reads_readLm_iff, fun s src ops m hs h => ?lm⟩
  case empty => exact exec_refused (v := .ln) hs (runVerb_ln_empty h src s hlog)
  case opened =>
    have hrun := runVerb_ln h src s hlog
    rw [if_pos (c.isOpen_iff.2 ⟨m, hst⟩)] at hrun
    exact exec_refused (v := .ln) hs hrun
  case closed =>
    have hrun := runVerb_ln h src s hlog
    rw [if_neg (by simp [c.isOpen_iff, hst])] at hrun
    exact exec_answers (v := .ln) hs hrun rfl rfl rfl
  case lc =>
    obtain ⟨t, hexec, hframe, haccepted⟩ := exec_answers (v := .lc) hs (runVerb_lc h src s) rfl rfl rfl
    refine ⟨t, _, hexec, List.filter_sublist, fun c => ?_, rfl, hframe, haccepted⟩
    rw [List.mem_filter, c.isOpen_iff]
  case lm => exact exec_answers (v := .lm) hs (runVerb_lm h src s) rfl rfl rfl

/-! ### `MA`, `MR` and `MW` (R179 to R182) -/

theorem reads_readMa_iff (ops : List Token) (m : Mem) (a : Word) (z : Size) :
    reads ops (readMa m) = some (a, z) ↔ ∃ o, readOperands ops = some o ∧ MaSays o m a z := by
  simp only [reads_eq_some_iff, readMa_eq_some_iff]

theorem reads_readMw_iff (ops : List Token) (m : Mem) (a : Word) (z : Size) (d : Data) :
    reads ops (readMw m) = some (a, z, d) ↔ ∃ o, readOperands ops = some o ∧ MwSays o m a z d := by
  simp only [reads_eq_some_iff, readMw_eq_some_iff]

theorem runVerb_ma {ops : List Token} {s : State} {a : Word} {z : Size} (h : reads ops (readMa s.mem) = some (a, z))
    (src : Source) : runVerb .ma src ops s =
      ({ s with mem := { s.mem with cursorAddr := a, cursorSize := z } }, answerFields [hexWord a, sizeText z]) := by
  obtain ⟨o, hops, hm⟩ := (reads_eq_some_iff ops _ _).1 h
  simp only [runVerb_of_read hops, verbRule, cmdMa, hm]

/-- Settles O41: the operands by `reads_readMa_iff`, the line by its rule `runVerb_ma`. -/
theorem maSetsCursor : Obligations.MaSetsCursor := by
  unfold Obligations.MaSetsCursor
  refine ⟨reads_readMa_iff, fun s src ops a z hs h => ?_⟩
  obtain ⟨o, hops, hnone, hletters, hplace⟩ := (reads_readMa_iff ops s.mem a z).1 h
  refine ⟨fun o' ho' => ?_, exec_answers (v := .ma) hs (runVerb_ma h src) rfl rfl rfl, fun hempty => ?_⟩
  · obtain rfl : o = o' := Option.some.inj (hops.symm.trans ho')
    exact ⟨hnone, hletters, hplace⟩
  · rw [(readOperands_eq_empty_iff ops).2 hempty] at hops
    obtain rfl := Option.some.inj hops
    exact ⟨hplace.addr, hplace.size⟩

/-- A line that begins an access (R181, R182). -/
theorem exec_begins {s : State} {src : Source} {v : Verb} {ops : List Token} {h : InHand} {c : AccClass} :
    Serves s src → runVerb v src ops s = s.startAccess h c →
    (s.transit.slotM = none → exec (verbRow v src ops) s = .next { s with
      transit := { s.transit with
        slotM := some
          { state := .queued, cls := c, addr := h.addr, size := h.size, data := h.value, farTimer := none } }
      mem := { s.mem with inHand := some h }
      console := match src with
        | .console =>
          settle { s.console with
            inService := some { line := lineOf v ops, stage := .executing, settings := false } }
        | .preload => settle s.console }) ∧
    (s.transit.slotM ≠ none → ∃ t, exec (verbRow v src ops) s = .next t ∧ Refused s t src v ops .bz) := by
  intro hs hr
  constructor
  · intro hfree
    rw [State.startAccess, hfree] at hr
    cases src with
    | console => rw [exec_console hs, hr]; rfl
    | preload => rw [exec_preload hs, hr]; rfl
  · intro hbusy
    obtain ⟨m, hm⟩ := Option.ne_none_iff_exists'.1 hbusy
    rw [State.startAccess, hm] at hr
    exact exec_refused hs hr

theorem partyOf_eq {src : Source} {h : InHand}
    (hp : h.party = (match src with | .console => .console | .preload => .preload)) : h.party = partyOf src := by
  cases src <;> exact hp

/-- Settles O42: the operands by `reads_readMa_iff` and `reads_readMw_iff`, the line by `exec_begins`. -/
theorem mrMwBeginAccess : Obligations.MrMwBeginAccess := by
  unfold Obligations.MrMwBeginAccess
  refine ⟨fun ops m a z => ⟨reads_readMa_iff ops m a z, reads_readMw_iff ops m a z⟩, fun s src ops v h c hs hparty hcase => ?_⟩
  have hp := partyOf_eq hparty
  rcases hcase with ⟨rfl, hcmd, rfl, hval, hread⟩ | ⟨rfl, hcmd, rfl, d, hval, hread⟩
  · obtain ⟨o, hops, hnone, hletters, hplace⟩ := (reads_readMa_iff ops s.mem h.addr h.size).1 hread
    refine ⟨fun o' ho' => ?_, exec_begins hs ?_⟩
    · obtain rfl : o = o' := Option.some.inj (hops.symm.trans ho')
      exact ⟨hnone, hplace, fun _ => hletters, fun hv => by cases hv⟩
    · obtain ⟨o, hops, hm⟩ := (reads_eq_some_iff ops _ _).1 hread
      simp only [runVerb_of_read hops, verbRule, cmdMr, hm, ← hcmd, ← hval, ← hp]
  · obtain ⟨o, hops, hnone, hletters, hplace, hvalue, hfits⟩ := (reads_readMw_iff ops s.mem h.addr h.size d).1 hread
    refine ⟨fun o' ho' => ?_, exec_begins hs ?_⟩
    · obtain rfl : o = o' := Option.some.inj (hops.symm.trans ho')
      refine ⟨hnone, hplace, fun hv => (by cases hv), fun _ => ⟨hletters, ?_⟩⟩
      refine (says_congr Iff.rfl fun t => ?_).1 hvalue
      constructor
      · exact fun ht => ⟨d, hval, ht, hfits⟩
      · rintro ⟨d', hd', ht, -⟩
        obtain rfl := Option.some.inj (hval.symm.trans hd')
        exact ht
    · obtain ⟨o, hops, hm⟩ := (reads_eq_some_iff ops _ _).1 hread
      simp only [runVerb_of_read hops, verbRule, cmdMw, hm, ← hcmd, ← hval, ← hp]

/-! ### `GO`, `BY`, `FZ` and `TH` (R134 to R137) -/

section
variable {ops : List Token} (h : (reads ops readNone).isSome = true) (src : Source) (s : State)
include h

/-- The verb that asks for an operating state, by the state that the part is in (R134, R135). -/
theorem runVerb_asks {v : Verb} {ask other : OpState} {r : ReturnState} {w : Text}
    (hv : (v = .go ∧ ask = .watch ∧ other = .bypass ∧ r = .watch ∧ w = "WATCH".toList) ∨
      (v = .byp ∧ ask = .bypass ∧ other = .watch ∧ r = .bypass ∧ w = "BYPASS".toList)) :
    (s.ctrl.op = other → runVerb v src ops s = (s.enter ask, answerFields [w])) ∧
    (s.ctrl.op = ask → runVerb v src ops s = (s, answerBare)) ∧
    (s.ctrl.op = .frozen → runVerb v src ops s =
      ({ s with ctrl := { s.ctrl with ret := some r } }, answerFields ["FROZEN".toList, w])) ∧
    (s.ctrl.op = .gated → runVerb v src ops s = (s.enter ask, answerFields [w])) := by
  obtain ⟨o, hops, hnone⟩ := readNone_of_reads h
  rcases hv with ⟨rfl, rfl, rfl, rfl, rfl⟩ | ⟨rfl, rfl, rfl, rfl, rfl⟩
  · refine ⟨fun hop => ?_, fun hop => ?_, fun hop => ?_, fun hop => ?_⟩ <;>
      simp only [runVerb_of_read hops, verbRule, cmdGo, hnone, hop] <;> rfl
  · refine ⟨fun hop => ?_, fun hop => ?_, fun hop => ?_, fun hop => ?_⟩ <;>
      simp only [runVerb_of_read hops, verbRule, cmdBy, hnone, hop] <;> rfl

theorem runVerb_fz : runVerb .fz src ops s = match s.ctrl.op with
    | .bypass => (s.freeze .bypass, answerFields [opStateWord .frozen, opStateWord .bypass])
    | .watch => (s.freeze .watch, answerFields [opStateWord .frozen, opStateWord .watch])
    | .frozen => (s, answerBare)
    | .gated => (s, .refused .bz) := by
  obtain ⟨o, hops, hnone⟩ := readNone_of_reads h
  cases hst : s.ctrl.op <;> simp only [runVerb_of_read hops, verbRule, cmdFz, hnone, hst]

theorem runVerb_th_frozen {r : ReturnState} (hop : s.ctrl.op = .frozen) (hret : s.ctrl.ret = some r) :
    runVerb .th src ops s = ((s.enter (opOfReturn r)).raise .th, answerFields [returnStateWord r]) := by
  obtain ⟨o, hops, hnone⟩ := readNone_of_reads h
  simp only [runVerb_of_read hops, verbRule, cmdTh, hnone, hop, hret]

theorem runVerb_th_refused (hop : s.ctrl.op ≠ .frozen) : runVerb .th src ops s = (s, .refused .bz) := by
  obtain ⟨o, hops, hnone⟩ := readNone_of_reads h
  cases hst : s.ctrl.op with
  | frozen => exact absurd hst hop
  | gated | bypass | watch => simp only [runVerb_of_read hops, verbRule, cmdTh, hnone, hst]

end

/-- A console line that is answered on one line, and may raise notices. -/
theorem exec_console_answers {s u : State} {v : Verb} {ops : List Token} {fs : List Text} {ns : List Notice} (hs : Ready s)
    (hr : runVerb v .console ops s = (u, answerFields fs)) (hc : u.console = offerAll s ns) (hp : u.preload = s.preload) :
    ∃ t, exec (verbRow v .console ops) s = .next t ∧ t = { u with console := t.console } ∧
      Answered s t (lineOf v ops) ns [fields '=' fs] := by
  obtain ⟨t, hexec, hframe, hanswered, hpre⟩ := exec_accepted (src := .console) hs hr hc hp fun hsrc => by cases hsrc
  refine ⟨t, hexec, ?_, hanswered⟩
  rw [hpre, ← hp] at hframe
  exact hframe

/-- A preload line that leaves GATED ends preload with `^PL OK` and the count that holds it (R148, R150). -/
theorem exec_leaves_gated {s : State} {v : Verb} {ops : List Token} {ask : OpState} {fs : List Text}
    (hs : Serves s .preload) (hask : ask ≠ .gated) (hr : runVerb v .preload ops s = (s.enter ask, answerFields fs)) :
    exec (verbRow v .preload ops) s = .next { s with
      ctrl := { s.ctrl with op := ask, ret := none }
      preload := { s.preload with lines := s.preload.lines + 1 }
      console := consoleAfter s [.plOk (s.preload.lines + 1)] } := by
  have hleft : (s.enter ask).countLine.preloading = false := beq_eq_false_iff_ne.2 hask
  rw [exec_preload hs, hr]
  simp only [answerFields, preloadDone, State.preloadCounted, hleft]
  rfl

/-- Settles O38: each verb's rule by the operating state, as a console line or as a preload line. -/
theorem stateVerbs : Obligations.StateVerbs := by
  unfold Obligations.StateVerbs
  intro s ops h
  refine ⟨fun v ask other r w hv => ?asks, fun o r w ho => ⟨fun hs hop => ?freezes, fun hs hop hret => ?thaws⟩,
    fun hs hop => ?frozen, fun hs hop => ?thRefused, fun hs => ?gated⟩
  case asks =>
    have hask : ask ≠ .gated := by rcases hv with ⟨-, rfl, -⟩ | ⟨-, rfl, -⟩ <;> decide
    refine ⟨fun hs hop => ?_, fun hs hop => ?_, fun hs hop => ?_, fun hs => ?_⟩
    · obtain ⟨hother, -⟩ := runVerb_asks h .console s hv
      exact exec_console_answers (ns := []) hs (hother hop) rfl rfl
    · obtain ⟨-, hsame, -⟩ := runVerb_asks h .console s hv
      exact exec_console_answers (fs := []) (ns := []) hs (hsame hop) rfl rfl
    · obtain ⟨-, -, hfrozen, -⟩ := runVerb_asks h .console s hv
      exact exec_console_answers (ns := []) hs (hfrozen hop) rfl rfl
    · obtain ⟨-, -, -, hgated⟩ := runVerb_asks h .preload s hv
      exact exec_leaves_gated hs hask (hgated (gated_of_serves_preload hs rfl))
  case freezes =>
    have hrun := runVerb_fz h .console s
    rcases ho with ⟨rfl, rfl, rfl⟩ | ⟨rfl, rfl, rfl⟩ <;>
    · rw [hop] at hrun
      exact exec_console_answers (v := .fz) (ns := [.fz]) hs hrun rfl rfl
  case thaws =>
    have hrun := runVerb_th_frozen h .console s hop hret
    rcases ho with ⟨rfl, rfl, rfl⟩ | ⟨rfl, rfl, rfl⟩ <;>
      exact exec_console_answers (v := .th) (ns := [.th]) hs hrun rfl rfl
  case frozen =>
    have hrun := runVerb_fz h .console s
    rw [hop] at hrun
    exact exec_console_answers (v := .fz) (fs := []) (ns := []) hs hrun rfl rfl
  case thRefused => exact exec_refused (v := .th) (src := .console) hs (runVerb_th_refused h .console s hop)
  case gated =>
    have hop := gated_of_serves_preload hs rfl
    have hfz := runVerb_fz h .preload s
    rw [hop] at hfz
    obtain ⟨t, ht, rfl⟩ := exec_refused (v := .fz) hs hfz
    obtain ⟨u, hu, rfl⟩ := exec_refused (v := .th) hs (runVerb_th_refused h .preload s (by simp [hop]))
    exact ⟨ht, hu⟩

/-! ### `SP` (R142, R144) -/

theorem State.preloadCounted_gated {s : State} (h : s.ctrl.op = .gated) : s.preloadCounted = s.countLine :=
  if_pos (beq_iff_eq.2 h)

theorem settle_of_sending {c : Console} (h : c.tx ≠ .idle) : settle c = c := if_neg h

theorem State.preloadSettings_idle {s : State} (h : s.console.tx = .idle) : s.preloadSettings = s.takeSettings := if_pos h

theorem State.preloadSettings_sending {s : State} (h : s.console.tx ≠ .idle) :
    s.preloadSettings = { s with console := { s.console with settingsDue := true } } := if_neg h

@[simp] theorem State.preloadSettings_ctrl (s : State) : s.preloadSettings.ctrl = s.ctrl := by
  unfold State.preloadSettings
  split <;> rfl

theorem reads_readSp_iff (ops : List Token) (p q : Params) :
    reads ops (readSp p) = some q ↔ ∃ o, readOperands ops = some o ∧ SpSays o p q := by
  simp only [reads_eq_some_iff, readSp_eq_some_iff]

/-- A preload line that is answered and stays in GATED is counted (R148). -/
theorem exec_preload_counted {s u : State} {v : Verb} {ops : List Token} {ls : List Text} (hs : Serves s .preload)
    (hr : runVerb v .preload ops s = (u, .lines ls)) (hg : u.ctrl.op = .gated) :
    exec (verbRow v .preload ops) s = .next { u.countLine with console := settle u.console } := by
  have hdone : preloadDone (u, .lines ls) = u.countLine := State.preloadCounted_gated hg
  rw [exec_preload hs, hr, hdone]
  rfl

/-- A preload line whose answer takes new line settings into use (R144, R148). -/
theorem exec_preload_settings {s u : State} {v : Verb} {ops : List Token} {x : Text} (hs : Serves s .preload)
    (hr : runVerb v .preload ops s = (u, .settings x)) (hg : u.ctrl.op = .gated) :
    exec (verbRow v .preload ops) s =
      .next { u.preloadSettings.countLine with console := settle u.preloadSettings.console } := by
  have hdone : preloadDone (u, .settings x) = u.preloadSettings.countLine :=
    State.preloadCounted_gated (by rw [State.preloadSettings_ctrl, hg])
  rw [exec_preload hs, hr, hdone]
  rfl

/-- The answer of `SP` takes the line settings into use when it changes one of them (R144). -/
theorem runVerb_sp {ops : List Token} {s : State} {p : Params} (h : reads ops (readSp s.ctrl.params) = some p) (src : Source) :
    runVerb .sp src ops s = ({ s with ctrl := { s.ctrl with params := p } },
      if p.baud = s.ctrl.params.baud ∧ p.parity = s.ctrl.params.parity then answerFields (spFields p)
      else .settings (fields '=' (spFields p))) := by
  obtain ⟨o, hops, hp⟩ := (reads_eq_some_iff ops _ _).1 h
  simp only [runVerb_of_read hops, verbRule, cmdSp, hp, paramFields_eq]

section
variable {s : State} {ops : List Token} {p : Params} (h : reads ops (readSp s.ctrl.params) = some p)
include h

theorem exec_sp_console (hs : Ready s) : ∃ t, exec (.sp .console ops) s = .next t ∧
    t = { s with ctrl := { s.ctrl with params := p }, console := t.console } ∧
    Answered s t (lineOf .sp ops) [] [fields '=' (spFields p)]
      (decide (¬ (p.baud = s.ctrl.params.baud ∧ p.parity = s.ctrl.params.parity))) := by
  have hrun := runVerb_sp h .console
  by_cases hsame : p.baud = s.ctrl.params.baud ∧ p.parity = s.ctrl.params.parity
  · rw [if_pos hsame] at hrun
    rw [decide_eq_false (not_not.2 hsame)]
    exact exec_console_answers (v := .sp) (ns := []) hs hrun rfl rfl
  · rw [if_neg hsame] at hrun
    rw [decide_eq_true hsame]
    have hexec := exec_console hs .sp ops
    rw [hrun] at hexec
    exact ⟨_, hexec, rfl, answered_of_reply (u := s) hs.noReply rfl rfl⟩

theorem exec_sp_preload (hs : Serves s .preload) : ∃ t, exec (.sp .preload ops) s = .next t ∧
    t = { s with
      ctrl := { s.ctrl with params := p }
      preload := { s.preload with lines := s.preload.lines + 1 }
      console := t.console } ∧
    (p.baud = s.ctrl.params.baud → p.parity = s.ctrl.params.parity → t.console = settle s.console) ∧
    (¬ (p.baud = s.ctrl.params.baud ∧ p.parity = s.ctrl.params.parity) → s.console.tx = .idle → t.console =
      settle { s.console with baudInUse := p.baud, parityInUse := p.parity }) ∧
    (¬ (p.baud = s.ctrl.params.baud ∧ p.parity = s.ctrl.params.parity) → s.console.tx ≠ .idle → t.console =
      { s.console with settingsDue := true }) := by
  have hgated := gated_of_serves_preload hs rfl
  have hrun := runVerb_sp h .preload
  by_cases hsame : p.baud = s.ctrl.params.baud ∧ p.parity = s.ctrl.params.parity
  · rw [if_pos hsame] at hrun
    exact ⟨_, exec_preload_counted (v := .sp) hs hrun hgated, rfl, fun _ _ => rfl, fun hne => absurd hsame hne,
      fun hne => absurd hsame hne⟩
  · rw [if_neg hsame] at hrun
    have hexec := exec_preload_settings (v := .sp) hs hrun hgated
    by_cases htx : s.console.tx = .idle
    · rw [State.preloadSettings_idle (s := { s with ctrl := { s.ctrl with params := p } }) htx] at hexec
      refine ⟨_, hexec, rfl, fun hb hp => absurd ⟨hb, hp⟩ hsame, fun _ _ => ?_, fun _ hne => absurd htx hne⟩
      simp [State.takeSettings, htx]
    · rw [State.preloadSettings_sending (s := { s with ctrl := { s.ctrl with params := p } }) htx] at hexec
      exact ⟨_, hexec, rfl, fun hb hp => absurd ⟨hb, hp⟩ hsame, fun _ hi => absurd hi htx, fun _ _ => settle_of_sending htx⟩

end

/-- Settles O40: the operands by `reads_readSp_iff`, the line by its rule `runVerb_sp`, from either source. -/
theorem spSetsParameters : Obligations.SpSetsParameters := by
  unfold Obligations.SpSetsParameters
  refine ⟨reads_readSp_iff, fun s ops p h => ⟨fun o' ho' => ?_, exec_sp_console h, exec_sp_preload h⟩⟩
  obtain ⟨o, hops, hsays⟩ := (reads_readSp_iff ops _ p).1 h
  obtain rfl : o = o' := Option.some.inj (hops.symm.trans ho')
  exact hsays

end Sys2Proof.Machine
end

section
/-! PROOFS. `RA` and `CL` (R81, R85, R139, R141): the walk and its clearance as one list of departures. -/

namespace Sys2Proof.Machine

/-! ### The walk and its clearance, as the statements speak of them -/

/-- The slots that the walk released, and then the others, in queue order. -/
def State.allOf (s : State) (rel : List SlotNo) : List SlotNo := rel ++ s.hold.filter (fun n => !rel.contains n)

theorem State.mem_allOf {s : State} {rel : List SlotNo} (h : ∀ n ∈ rel, n ∈ s.hold) (n : SlotNo) :
    n ∈ s.allOf rel ↔ n ∈ s.hold := by
  rw [State.allOf, List.mem_append, List.mem_filter]
  by_cases hn : n ∈ rel
  · simp [hn, h n hn]
  · simp [hn]

section
variable {s t : State} {rel : List SlotNo} (h : Lawful s) (hrel : Released s s.hold rel)
include h hrel

/-- The slots that the walk releases had no decision pending, so they hit no record. -/
theorem Released.not_hits {n : SlotNo} (hn : n ∈ rel) : s.hitsAny n = false := by
  have hin := hrel.sublist.subset hn
  obtain ⟨a, -, ha, hst, -, hok⟩ := h.held hin
  have horder := ((hrel.exact n a hin ha).1 hn).1
  rw [State.hitsAny, ha, Option.any_some, State.departHit_of_not_substitute]
  · rfl
  · rw [(hok.decision hst horder).2]
    simp

theorem Released.departure : Departure s (s.allOf rel) := by
  obtain ⟨hnd, -⟩ := h.leavers_releaseAll hrel
  refine ⟨hnd, fun n hn => (State.mem_allOf hrel.sublist.subset n).1 hn, ?_⟩
  have hnone : rel.filter s.hitsAny = [] := List.filter_eq_nil_iff.2 fun n hn => by simp [hrel.not_hits h hn]
  rw [State.allOf, List.filter_append, hnone, List.nil_append, List.filter_filter]
  refine List.filter_congr fun n hn => ?_
  have hall := (State.mem_allOf hrel.sublist.subset n).2 hn
  rw [State.allOf] at hall
  by_cases hnr : n ∈ rel
  · simp [hnr, hrel.not_hits h hnr]
  · simp [hnr, hn]

theorem Released.walked (ht : Reached (s.departed (s.allOf rel)) t) : Walked s t rel := by
  have hdep := hrel.departure h
  refine ⟨hrel.sublist, hrel.exact, ?_, hdep.responds h ht⟩
  have hqueued : rel.filter (fun n => t.slotIs n .queued) = rel := List.filter_eq_self.2 fun n hn => by
    rw [hdep.queued_iff h ht ((State.mem_allOf hrel.sublist.subset n).2 (hrel.sublist.subset hn)), hrel.not_hits h hn]
    rfl
  rw [hdep.forwarded h ht, State.allOf, List.filter_append, hqueued, List.filter_filter, List.append_assoc]
  congr 2
  exact List.filter_congr fun n _ => Bool.and_comm ..

end

theorem State.departed_allOf_hold {s : State} {rel : List SlotNo} (h : Lawful s) (hrel : Released s s.hold rel) :
    (s.departed (s.allOf rel)).hold = [] := by
  rw [(State.departed_gone ((hrel.departure h).leavers h)).hold]
  refine List.filter_eq_nil_iff.2 fun n hn => ?_
  simp [(State.mem_allOf hrel.sublist.subset n).2 hn]

/-- The frame of departures that a line's answer follows. -/
theorem Moves.withPorts {s d t : State} (h : Moves s d) (ht : t = { d with console := t.console, preload := t.preload }) :
    t = { s with
      transit := { s.transit with slots := t.transit.slots }
      near := { s.near with responses := t.near.responses }
      far := { s.far with forward := t.far.forward }
      hold := t.hold
      subst := t.subst
      log := { s.log with records := t.log.records }
      console := t.console
      preload := t.preload } := by
  have hslots : t.transit.slots = d.transit.slots := by rw [ht]
  have hnear : t.near.responses = d.near.responses := by rw [ht]
  have hfar : t.far.forward = d.far.forward := by rw [ht]
  have hhold : t.hold = d.hold := by rw [ht]
  have hsubst : t.subst = d.subst := by rw [ht]
  have hlog : t.log.records = d.log.records := by rw [ht]
  rw [hslots, hnear, hfar, hhold, hsubst, hlog]
  unfold Moves at h
  rw [h] at ht
  exact ht

/-! ### `RA` (R81) -/

theorem runVerb_ra {ops : List Token} (h : (reads ops readNone).isSome = true) (src : Source) (s : State) :
    runVerb .ra src ops s =
      (s.releaseAll.1, answerFields [hexPlain s.releaseAll.2.1, hexPlain s.releaseAll.2.2]) := by
  obtain ⟨o, hops, hnone⟩ := readNone_of_reads h
  simp only [runVerb_of_read hops, verbRule, cmdRa, hnone]

/-- Settles O34: the line by `runVerb_ra`, the slots that leave by `Lawful.releaseAll_eq`. -/
theorem raEmptiesHoldQueue : Obligations.RaEmptiesHoldQueue := by
  unfold Obligations.RaEmptiesHoldQueue
  intro s src ops hs hops hslots htransit
  have h : Lawful s := ⟨hslots, htransit⟩
  obtain ⟨rel, hrel, hall⟩ := h.releaseAll_eq
  have hrun := runVerb_ra hops src s
  rw [hall] at hrun
  have hdep := hrel.departure h
  have hmoves := (State.departed_gone (hdep.leavers h)).moves
  obtain ⟨t, hexec, hframe, haccepted⟩ := exec_answers (v := .ra) hs hrun hmoves.console hmoves.preload
    (congrArg Ctrl.op hmoves.ctrl)
  change t = { s.departed (s.allOf rel) with console := t.console, preload := t.preload } at hframe
  have hreached : Reached (s.departed (s.allOf rel)) t := by
    refine ⟨?_, ?_, ?_, ?_⟩ <;> rw [hframe]
    rfl
  have hout : ∀ n, n ∉ s.allOf rel ↔ n ∉ s.hold := fun n => not_congr (State.mem_allOf hrel.sublist.subset n)
  refine ⟨t, rel, hexec, ?hold, haccepted, hrel.walked h hreached, fun n a hn ha => ?departs, fun n hn => ?other,
    fun k => ?hits, fun hlog => ?log, fun hplain => ?plain, ?frame⟩
  case hold => rw [hreached.hold, State.departed_allOf_hold h hrel]
  case departs => exact hdep.departs h hreached ((State.mem_allOf hrel.sublist.subset n).2 hn) ha
  case other => rw [hdep.slot_eq h hreached, if_neg ((hout n).2 hn)]
  case hits =>
    have hrecord : t.record k = (s.departed (s.allOf rel)).record k := by rw [hframe]; rfl
    rw [hrecord]
    exact hdep.hitsMade_hold h hreached k
  case log => exact hdep.logFollows h hreached (by rw [hframe]) hlog
  case plain =>
    rw [hframe]
    exact State.departed_plain (hdep.leavers h) fun n hn a ha =>
      hplain n a ((State.mem_allOf hrel.sublist.subset n).1 hn) ha
  case frame =>
    have hempty : t.hold = [] := by rw [hreached.hold, State.departed_allOf_hold h hrel]
    rw [← hempty]
    exact hmoves.withPorts hframe

/-! ### `CL` (R85, R111, R139, R141) -/

/-- An access without its log sequence number (R111). -/
def unlogged (a : Access) : Access := { a with logSeq := none }

theorem hits_clearRecords (s : State) (a : Access) (k : RecordNo) : Hits s.clearRecords a k ↔ Hits s a k :=
  hits_congr rfl (fun _ => ⟨rfl, rfl, rfl⟩) a k

theorem blocks_clearRecords (s : State) (m : SlotNo) (a : Access) : Blocks s.clearRecords m (unlogged a) ↔ Blocks s m a := by
  refine blocks_congr ?_ rfl
  rw [State.slot_clearRecords, Option.map_map]
  rfl

theorem substLeaves_clearRecords (s t : State) (n : SlotNo) (k : RecordNo) :
    (∃ a, SubstLeaves s.clearRecords t n a ∧ Hits s.clearRecords a k) ↔ ∃ a, SubstLeaves s t n a ∧ Hits s a k := by
  constructor
  · rintro ⟨a, ⟨hheld, hgone, ha, hp⟩, hhit⟩
    rw [State.slot_clearRecords] at ha
    obtain ⟨b, hb, rfl⟩ := Option.map_eq_some_iff.1 ha
    exact ⟨b, ⟨hheld, hgone, hb, hp⟩, (hits_clearRecords s _ k).1 hhit⟩
  · rintro ⟨a, ⟨hheld, hgone, ha, hp⟩, hhit⟩
    exact ⟨unlogged a, ⟨hheld, hgone, by rw [State.slot_clearRecords, ha]; rfl, hp⟩, (hits_clearRecords s _ k).2 hhit⟩

theorem foldl_afterHit_clearRecords (s : State) (hs : List SlotNo) (r : SubstRecord) :
    (hs.filterMap s.clearRecords.slot).foldl afterHit r = (hs.filterMap s.slot).foldl afterHit r := by
  induction hs generalizing r with
  | nil => rfl
  | cons n hs ih =>
    rw [List.filterMap_cons, List.filterMap_cons, State.slot_clearRecords]
    cases s.slot n with
    | none => exact ih r
    | some a => exact ih (afterHit r a)

theorem HitsMade.of_clearRecords {s t : State} {ns : List SlotNo} {k : RecordNo} {r : SubstRecord}
    (h : HitsMade s.clearRecords t ns k r) : HitsMade s t ns k r := by
  obtain ⟨hs, hsub, hmem, hr⟩ := h
  refine ⟨hs, hsub, fun n => (hmem n).trans (and_congr_right fun _ => substLeaves_clearRecords s t n k), ?_⟩
  rw [hr, foldl_afterHit_clearRecords]
  rfl

theorem HitsMade.reached {s d t : State} {ns : List SlotNo} {k : RecordNo} {r : SubstRecord} (h : HitsMade s d ns k r)
    (ht : t.hold = d.hold) : HitsMade s t ns k r := by
  obtain ⟨hs, hsub, hmem, hr⟩ := h
  refine ⟨hs, hsub, fun n => (hmem n).trans (and_congr_right fun _ => exists_congr fun a => and_congr_left fun _ => ?_), hr⟩
  exact ⟨fun ⟨h1, h2, h3, h4⟩ => ⟨h1, ht ▸ h2, h3, h4⟩, fun ⟨h1, h2, h3, h4⟩ => ⟨h1, ht ▸ h2, h3, h4⟩⟩

theorem Departs.of_clearRecords {s t : State} {n : SlotNo} {a : Access} (h : Departs s.clearRecords t n a) :
    Departs s t n a := by
  refine ⟨h.forward, fun hp hmiss => h.miss hp fun k hk => hmiss k ((hits_clearRecords s a k).1 hk), fun k hp hhit => ?_⟩
  obtain ⟨hslot, e, he, hes, heg, her, hed, r, hr, hdata⟩ := h.hit k hp ((hits_clearRecords s a k).2 hhit)
  exact ⟨hslot, e, he, hes, heg, her, hed, r, hr.of_clearRecords, hdata⟩

theorem Walked.of_clearRecords {s t : State} {rel : List SlotNo} (h : Walked s.clearRecords t rel) : Walked s t rel := by
  have hahead : s.clearRecords.ahead = s.ahead := by
    funext n
    rw [State.ahead, State.ahead, State.clearRecords_hold]
  obtain ⟨hreleased, hexact, hforward, es, hes, hslots, hok⟩ := h
  simp only [State.clearRecords_hold, State.clearRecords_far, State.clearRecords_near, hahead]
    at hreleased hexact hforward hes hslots
  refine ⟨hreleased, fun n a hn ha => ?_, hforward, es, hes, hslots, hok⟩
  refine (hexact n (unlogged a) hn (by rw [State.slot_clearRecords, ha]; rfl)).trans (and_congr_right fun _ => ?_)
  exact forall₃_congr fun m _ _ => not_congr (blocks_clearRecords s m a)

/-- Steps 2 to 5 of soft clear as one record update (R139, R141). -/
theorem State.wipe_eq (u : State) : u.wipeTables.clearedState = { u with
    watch := Vector.replicate 16 WatchEntry.offValue
    subst := Vector.ofFn (fun i : Fin 8 => { u.record i with valid := false })
    log := { records := [], counter := 0, lost := 0, mode := u.log.mode }
    alerts := []
    ctrl := if u.ctrl.op = .gated then u.ctrl else { u.ctrl with op := .bypass, ret := none } } := by
  unfold State.clearedState
  simp only [State.wipeTables_ctrl]
  cases hop : u.ctrl.op <;> simp only [reduceCtorEq, if_true, if_false] <;> rfl

theorem runVerb_cl {ops : List Token} (h : (reads ops readNone).isSome = true) (src : Source) (s : State) :
    runVerb .cl src ops s = (s.clearRecords.releaseAll.1.wipeTables.clearedState,
      answerFields [hexPlain s.clearRecords.releaseAll.2.1, hexPlain s.clearRecords.releaseAll.2.2]) := by
  obtain ⟨o, hops, hnone⟩ := readNone_of_reads h
  simp only [runVerb_of_read hops, verbRule, cmdCl, hnone]

/-- The frame of soft clear, from that of its departures. -/
theorem Moves.wiped {s d t : State} (h : Moves s.clearRecords d) (hhold : d.hold = [])
    (ht : t = { d.wipeTables.clearedState with console := t.console, preload := t.preload }) :
    t = { s with
      transit := { s.transit with slots := t.transit.slots }
      near := { s.near with responses := t.near.responses }
      far := { s.far with forward := t.far.forward }
      watch := Vector.replicate 16 WatchEntry.offValue
      hold := []
      subst := t.subst
      log := { records := [], counter := 0, lost := 0, mode := s.log.mode }
      alerts := []
      ctrl := if s.ctrl.op = .gated then s.ctrl else { s.ctrl with op := .bypass, ret := none }
      console := t.console
      preload := t.preload } := by
  rw [State.wipe_eq, hhold] at ht
  have hslots : t.transit.slots = d.transit.slots := by rw [ht]
  have hnear : t.near.responses = d.near.responses := by rw [ht]
  have hfar : t.far.forward = d.far.forward := by rw [ht]
  have hsubst : t.subst = Vector.ofFn (fun i : Fin 8 => { d.record i with valid := false }) := by rw [ht]
  rw [hslots, hnear, hfar, hsubst]
  unfold Moves at h
  refine ht.trans ?_
  rw [h]
  rfl

theorem Moves.cleared_ctrl {s d : State} (h : Moves s.clearRecords d) : d.ctrl = s.ctrl := by
  rw [h.ctrl, State.clearRecords_ctrl]

/-- What soft clear leaves of the slots and the substitution records (R139). -/
structure Cleaned (s t : State) (rel : List SlotNo) : Prop where
  walked  : Walked s t rel
  departs : ∀ n a, n ∈ s.hold → s.slot n = some a → Departs s t n (unlogged a)
  others  : ∀ n, n ∉ s.hold → t.slot n = (s.slot n).map unlogged
  noSeq   : ∀ n, t.slotSeq n = none
  ranges  : ∀ k, (t.record k).valid = false ∧ (t.record k).addr = (s.record k).addr ∧ (t.record k).size = (s.record k).size
  plain   : (∀ n a, n ∈ s.hold → s.slot n = some a → a.pendAction ≠ some .substitute) →
              ∀ k, t.record k = { s.record k with valid := false }
  hits    : ∀ k, ∃ r, HitsMade s t s.hold k r ∧ t.record k = { r with valid := false }

theorem Released.cleaned {s t : State} {rel : List SlotNo} (h : Lawful s.clearRecords)
    (hrel : Released s.clearRecords s.clearRecords.hold rel)
    (ht : Reached (s.clearRecords.departed (s.clearRecords.allOf rel)) t)
    (hrecord : ∀ k, t.record k = { (s.clearRecords.departed (s.clearRecords.allOf rel)).record k with valid := false })
    (hseq : NoSeq (s.clearRecords.departed (s.clearRecords.allOf rel))) : Cleaned s t rel := by
  have hdep := hrel.departure h
  have hgone := State.departed_gone (hdep.leavers h)
  have hin : ∀ n, n ∈ s.clearRecords.allOf rel ↔ n ∈ s.hold := fun n => by
    rw [State.mem_allOf hrel.sublist.subset, State.clearRecords_hold]
  refine ⟨(hrel.walked h ht).of_clearRecords, fun n a hn ha => ?departs, fun n hn => ?others, fun n => ?noSeq,
    fun k => ?ranges, fun hnone k => ?plain, fun k => ⟨_, ?hits, hrecord k⟩⟩
  case departs =>
    exact (hdep.departs h ht ((hin n).2 hn) (by rw [State.slot_clearRecords, ha]; rfl)).of_clearRecords
  case others =>
    rw [hdep.slot_eq h ht, if_neg (mt (hin n).1 hn), State.slot_clearRecords]
    rfl
  case noSeq =>
    have hn := hseq n
    rwa [State.slotSeq, ← ht.slot] at hn
  case ranges =>
    obtain ⟨-, haddr, hsize⟩ := hgone.ranges k
    rw [hrecord k]
    exact ⟨rfl, haddr, hsize⟩
  case plain =>
    obtain ⟨hsubst, -⟩ := State.departed_plain (hdep.leavers h) fun n hn a ha => by
      rw [State.slot_clearRecords] at ha
      obtain ⟨b, hb, rfl⟩ := Option.map_eq_some_iff.1 ha
      exact hnone n b ((hin n).1 hn) hb
    rw [hrecord k, State.record, hsubst]
    rfl
  case hits =>
    have hhits := hdep.hitsMade_hold h (Reached.refl _) k
    rw [State.clearRecords_hold] at hhits
    exact hhits.of_clearRecords.reached ht.hold

/-- Settles O39: the slots that leave by `Lawful.releaseAll_eq`, of the state whose slots name no record; the tables by
`State.wipe_eq`. -/
theorem clClears : Obligations.ClClears := by
  unfold Obligations.ClClears
  intro s src ops hs hops hslots htransit
  have h : Lawful s.clearRecords := Lawful.clearRecords ⟨hslots, htransit⟩
  obtain ⟨rel, hrel, hall⟩ := h.releaseAll_eq
  have hrun := runVerb_cl hops src s
  have hnoSeq := noSeq_holdKept.releaseAll s.clearRecords_noSeq
  rw [hall, State.clearRecords_hold] at hrun
  rw [hall] at hnoSeq
  have hmoves := (State.departed_gone ((hrel.departure h).leavers h)).moves
  have hempty := State.departed_allOf_hold h hrel
  have hcleaned := fun t => hrel.cleaned (t := t) h
  change runVerb .cl src ops s = ((s.clearRecords.departed (s.clearRecords.allOf rel)).wipeTables.clearedState, _) at hrun
  change NoSeq (s.clearRecords.departed (s.clearRecords.allOf rel)) at hnoSeq
  generalize s.clearRecords.departed (s.clearRecords.allOf rel) = d at hrun hnoSeq hmoves hempty hcleaned
  have hctrl := hmoves.cleared_ctrl
  obtain ⟨t, hexec, hframe, haccepted⟩ := exec_accepted (ns := []) hs hrun
    (by rw [State.wipe_eq]; exact hmoves.console) (by rw [State.wipe_eq]; exact hmoves.preload)
    (fun hsrc => by
      have hgated := gated_of_serves_preload hs hsrc
      rw [State.wipe_eq]
      dsimp only
      rw [hctrl, if_pos hgated, hgated])
  obtain ⟨hwalked, hdeparts, hothers, hseq, hranges, hplain, hhits⟩ := hcleaned t
    (by refine ⟨?_, ?_, ?_, ?_⟩ <;> rw [hframe, State.wipe_eq]; rfl)
    (fun k => by rw [hframe, State.wipe_eq]; simp [State.record]) hnoSeq
  exact ⟨t, rel, hexec, haccepted, hwalked, hdeparts, hothers, hseq, hranges, hplain, hhits, hmoves.wiped hempty hframe⟩

end Sys2Proof.Machine
end

section
/-! PROOFS. The expiry of a hold timer and the verbs `HR`, `HA` and `HF` (R69 to R80): each is one departure and the order
clearance that follows it. -/

namespace Sys2Proof.Machine

/-! ### Clearance leaves the ports and the operating state -/

@[simp] theorem State.clearance_ctrl (s : State) : s.clearance.1.ctrl = s.ctrl :=
  foldl_same (fun sc : State × Nat => sc.1.ctrl) (fun sc n => by unfold clearStep; split <;> simp) s.hold (s, 0)

@[simp] theorem State.clearance_preload (s : State) : s.clearance.1.preload = s.preload :=
  foldl_same (fun sc : State × Nat => sc.1.preload) (fun sc n => by unfold clearStep; split <;> simp) s.hold (s, 0)

/-! ### The order guard at a held slot -/

theorem State.blocked_eq_false_iff {s : State} {n : SlotNo} {a : Access} (ha : s.slot n = some a) :
    s.blocked n = false ↔ ∀ m ∈ s.ahead n, ¬ Blocks s m a := by
  rw [Bool.eq_false_iff, ne_eq, blocked_iff ha]
  simp only [not_exists, not_and]

/-! ### Expiry (R69 to R73) -/

theorem exec_expiry {s : State} {n : SlotNo} (hrun : s.running) :
    exec (.expiry n) s = .next { (if s.expiryDue n then s.expire n else s) with
      console := settle (if s.expiryDue n then s.expire n else s).console } := by
  show s.event (fun s => if s.expiryDue n then s.expire n else s) = _
  rw [State.event_running hrun]

theorem State.expiryDue_iff (s : State) (n : SlotNo) :
    s.expiryDue n = true ↔ ∃ a, s.slot n = some a ∧ a.state = .held ∧ a.holdTimer = some 0 := by
  simp [State.expiryDue, Option.any_eq_true]

/-- The near side of an expiry under policy FAIL (R70). -/
theorem State.expire_fail {s : State} {n : SlotNo} {a : Access} {g : NearTag} (hp : s.ctrl.params.policy = .fail)
    (ha : s.slot n = some a) (hg : a.tag = some g) : s.expire n = ({ s with
      hold := s.hold.filter (fun m => m != n)
      transit := { s.transit with slots := s.transit.slots.set n (some (answered a)) }
      near := { s.near with
        responses := s.near.responses ++ [{ tag := g, reason := .denied, data := none, slot := some n }] }
      log := logClosed s.log a.logSeq .expiredFailed .denied none
      console := offerAll s [.ex n] } : State).clearance.1 := by
  unfold State.expire
  rw [hp]
  dsimp only
  rw [State.answerHeld_eq _ _ _ ha hg]
  rfl

/-- An unblocked slot under policy RELEASE (R71). -/
theorem State.expire_release {s : State} {n : SlotNo} {a : Access} (hp : s.ctrl.params.policy = .release)
    (ha : s.slot n = some a) (hfree : s.blocked n = false) : s.expire n = ({ s with
      hold := s.hold.filter (fun m => m != n)
      transit := { s.transit with slots := s.transit.slots.set n (some (left a .queued)) }
      far := { s.far with forward := s.far.forward ++ [n] }
      log := logMarked s.log a.logSeq .releasedByExpiry
      console := offerAll s [.ex n] } : State).clearance.1 := by
  unfold State.expire
  rw [hp]
  dsimp only
  have hslot : (s.release n).slot n = some (left a .queued) := by
    rw [State.release_eq ha]
    simp [State.slot]
  rw [if_neg (by simp [hfree]), State.markRecord_eq _ hslot, State.release_eq ha]
  rfl

/-- A blocked slot under policy RELEASE stays in its place (R71, R72). -/
theorem State.expire_blocked {s : State} {n : SlotNo} {a : Access} (hp : s.ctrl.params.policy = .release)
    (ha : s.slot n = some a) (hst : a.state = .held) (hblocked : s.blocked n = true) : s.expire n = { s with
      transit := { s.transit with
        slots := s.transit.slots.set n (some { a with
          holdReason := some .order, holdTimer := none, pendAction := some .forward }) }
      log := logMarked s.log a.logSeq .releasedByExpiry
      console := offerAll s [.ex n] } := by
  unfold State.expire
  rw [hp]
  dsimp only
  have hmade : s.makeOrder n .forward = s.setSlot n (some { a with
      holdReason := some .order, holdTimer := none, pendAction := some .forward }) := by
    rw [State.makeOrder, State.modSlot, ha, Option.map_some, ← hst]
  have hslot : (s.makeOrder n .forward).slot n = some { a with
      holdReason := some .order, holdTimer := none, pendAction := some .forward } := by
    rw [hmade, State.slot_setSlot_same]
  rw [if_pos hblocked, State.markRecord_eq _ hslot, hmade]
  rfl

/-- Settles O25: the expiry under each policy by its record update, the order guard by `State.blocked_eq_false_iff`. -/
theorem holdExpiry : Obligations.HoldExpiry := by
  unfold Obligations.HoldExpiry
  refine ⟨fun s u n a g hrun hp ha hst htimer hg hu => ?fail, fun s u n a hrun hp ha hst htimer => ⟨fun hfree hu => ?release,
    fun hblocked => ?blocked⟩, fun s n hrun hnot => ?notDue⟩
  case fail =>
    rw [exec_expiry hrun, if_pos ((s.expiryDue_iff n).2 ⟨a, ha, hst, htimer⟩), State.expire_fail hp ha hg, ← hu,
      State.clearance_console]
  case release =>
    rw [exec_expiry hrun, if_pos ((s.expiryDue_iff n).2 ⟨a, ha, hst, htimer⟩),
      State.expire_release hp ha ((State.blocked_eq_false_iff ha).2 hfree), ← hu, State.clearance_console]
  case blocked =>
    rw [← State.blocked_eq_false_iff ha, Bool.not_eq_false] at hblocked
    rw [exec_expiry hrun, if_pos ((s.expiryDue_iff n).2 ⟨a, ha, hst, htimer⟩), State.expire_blocked hp ha hst hblocked]
    rfl
  case notDue =>
    have hdue : ¬ s.expiryDue n = true := fun hc => by
      obtain ⟨a, ha, hst, htimer⟩ := (s.expiryDue_iff n).1 hc
      exact hnot a ha ⟨hst, htimer⟩
    rw [exec_expiry hrun, if_neg hdue]

/-! ### `HR` (R76, R77) -/

/-- A verb that lets one slot go and answers with the number that the order clearance let go (R76). -/
theorem exec_departs {s u : State} {src : Source} {v : Verb} {ops : List Token} {n : SlotNo} (hs : Serves s src)
    (hr : runVerb v src ops s = departureAnswer n u.clearance) (hc : u.console = s.console) (hp : u.preload = s.preload)
    (hop : u.ctrl.op = s.ctrl.op) :
    ∃ t, exec (verbRow v src ops) s = .next t ∧ t = { u.clearance.1 with console := t.console, preload := t.preload } ∧
      Accepted s t src v ops [] [fields '=' [[hexChar n.val], hexPlain u.clearance.2]] :=
  exec_answers hs hr (by simp [hc]) (by simp [hp]) (by simp [hop])

theorem notHeld_of_forall {s : State} {n : SlotNo} (h : ∀ a, s.slot n = some a → a.state ≠ .held) :
    s.slotIs n .held = false := by
  rw [Bool.eq_false_iff]
  intro hc
  obtain ⟨a, ha, hst⟩ := (slotIs_iff s n _).1 hc
  exact h a ha hst

section
variable {ops : List Token} (src : Source) (s : State)

theorem runVerb_hr {n : SlotNo} (h : reads ops readOptDigit = some (some n)) : runVerb .hr src ops s =
    if !s.slotIs n .held then (s, .refused .nh)
    else if s.heldAs n .order then (s, .refused .bz)
    else if s.blocked n then (s, .refused .ob)
    else departureAnswer n (s.release n).clearance := by
  obtain ⟨o, hops, hn⟩ := (reads_eq_some_iff ops _ _).1 h
  simp only [runVerb_of_read hops, verbRule, cmdHr, hn]

theorem runVerb_hr_alone (h : reads ops readOptDigit = some none) : runVerb .hr src ops s =
    match s.oldestForDecision with
    | none => (s, .refused .em)
    | some n => departureAnswer n (s.release n).clearance := by
  obtain ⟨o, hops, hn⟩ := (reads_eq_some_iff ops _ _).1 h
  cases hold : s.oldestForDecision <;> simp only [runVerb_of_read hops, verbRule, cmdHr, hn, hold]

end

/-- The oldest slot held for a decision: none ahead of it is (R77). -/
theorem State.oldestForDecision_eq {s : State} {n : SlotNo} {a : Access} (ha : s.slot n = some a) (hn : n ∈ s.hold)
    (hreason : a.holdReason = some .watch ∨ a.holdReason = some .freeze)
    (hahead : ∀ m ∈ s.ahead n, ∀ b, s.slot m = some b → b.holdReason ≠ some .watch ∧ b.holdReason ≠ some .freeze) :
    s.oldestForDecision = some n := by
  obtain ⟨p, r, hhold, hp⟩ := List.eq_append_cons_of_mem hn
  rw [ahead_of_split hhold hp] at hahead
  unfold State.oldestForDecision
  rw [List.find?_eq_some_iff_append]
  refine ⟨(heldForDecision_iff ha).2 hreason, p, r, hhold, fun m hm => ?_⟩
  rw [Bool.not_eq_true', Bool.eq_false_iff]
  intro hc
  rw [State.heldForDecision, Bool.or_eq_true] at hc
  rcases hc with hc | hc <;>
  · obtain ⟨b, hb, hr⟩ := (Option.any_eq_true ..).1 hc
    rw [beq_iff_eq] at hr
    obtain ⟨h1, h2⟩ := hahead m hm b hb
    contradiction

theorem State.oldestForDecision_none {s : State} (h : ∀ n ∈ s.hold, ∀ a, s.slot n = some a →
    a.holdReason ≠ some .watch ∧ a.holdReason ≠ some .freeze) : s.oldestForDecision = none := by
  unfold State.oldestForDecision
  rw [List.find?_eq_none]
  intro n hn hc
  rw [State.heldForDecision, Bool.or_eq_true] at hc
  rcases hc with hc | hc <;>
  · obtain ⟨b, hb, hr⟩ := (Option.any_eq_true ..).1 hc
    rw [beq_iff_eq] at hr
    obtain ⟨h1, h2⟩ := h n hn b hb
    contradiction

/-- A slot that `HR` takes is released (R76, R77). -/
theorem exec_hr_releases {s : State} {src : Source} {ops : List Token} {n : SlotNo} {a : Access} (hs : Serves s src)
    (ha : s.slot n = some a) (hr : runVerb .hr src ops s = departureAnswer n (s.release n).clearance) :
    ∃ (t u : State), exec (.hr src ops) s = .next t ∧
      u = { s with
        hold := s.hold.filter (fun m => m != n)
        transit := { s.transit with slots := s.transit.slots.set n (some (left a .queued)) }
        far := { s.far with forward := s.far.forward ++ [n] } } ∧
      t = { u.clearance.1 with console := t.console, preload := t.preload } ∧
      Accepted s t src .hr ops [] [fields '=' [[hexChar n.val], hexPlain u.clearance.2]] := by
  rw [State.release_eq ha] at hr
  obtain ⟨t, hexec, hframe, haccepted⟩ := exec_departs (v := .hr) hs hr rfl rfl rfl
  exact ⟨t, _, hexec, rfl, hframe, haccepted⟩

/-- Settles O32: the refusals of `HR s` in their order, and the release by `exec_hr_releases`. -/
theorem hrReleases : Obligations.HrReleases := by
  unfold Obligations.HrReleases
  intro s src ops hs
  refine ⟨reads_readOptDigit_none_iff ops, reads_readOptDigit_some_iff ops, fun n h => ?refused, fun n a ha hcase => ?releases,
    fun h hnone => ?empty⟩
  case refused =>
    have hrun := runVerb_hr src s h
    refine ⟨fun hnot => ?_, fun a ha hst horder => ?_, fun a ha hst horder hblocked => ?_⟩
    · rw [if_pos (by simp [notHeld_of_forall hnot])] at hrun
      exact exec_refused (v := .hr) hs hrun
    · rw [if_neg (by simp [(slotIs_iff s n _).2 ⟨a, ha, hst⟩]), if_pos ((heldAs_iff ha _).2 horder)] at hrun
      exact exec_refused (v := .hr) hs hrun
    · rw [if_neg (by simp [(slotIs_iff s n _).2 ⟨a, ha, hst⟩]), if_neg (mt (heldAs_iff ha _).1 horder),
        if_pos ((blocked_iff ha).2 hblocked)] at hrun
      exact exec_refused (v := .hr) hs hrun
  case releases =>
    refine exec_hr_releases hs ha ?_
    rcases hcase with ⟨h, hst, horder, hfree⟩ | ⟨h, hn, hreason, hahead⟩
    · rw [runVerb_hr src s h, if_neg (by simp [(slotIs_iff s n _).2 ⟨a, ha, hst⟩]), if_neg (mt (heldAs_iff ha _).1 horder),
        if_neg (by simp [(State.blocked_eq_false_iff ha).2 hfree])]
    · rw [runVerb_hr_alone src s h, State.oldestForDecision_eq ha hn hreason hahead]
  case empty =>
    have hrun := runVerb_hr_alone src s h
    rw [State.oldestForDecision_none hnone] at hrun
    exact exec_refused (v := .hr) hs hrun

/-! ### `HA` and `HF` (R74, R78 to R80) -/

theorem readHa_eq_some_iff (o : Operands) (n : SlotNo) (v : Option Text) :
    readHa o = some (n, v) ↔ DigitIs o n.val ∧ o.kws = (match v with | none => [] | some w => [('V', w)]) := by
  obtain ⟨pos, kws⟩ := o
  unfold readHa DigitIs
  split
  · rename_i p hpos hkws
    dsimp only at hpos hkws
    subst hpos hkws
    cases v <;> simp [← oneDigit_eq_some_iff]
  · rename_i p w hpos hkws
    dsimp only at hpos hkws
    subst hpos hkws
    cases v <;> simp [← oneDigit_eq_some_iff]
  · rename_i h1 h2
    dsimp only at h1 h2
    simp only [reduceCtorEq, false_iff, not_and]
    rintro ⟨t, hpos, -⟩ hkws
    cases v with
    | none => exact h1 t hpos hkws
    | some w => exact h2 t w hpos hkws

theorem reads_readHa_iff (ops : List Token) (n : SlotNo) (v : Option Text) :
    reads ops readHa = some (n, v) ↔ HaSays ops n v := by
  cases v <;> simp only [reads_eq_some_iff, readHa_eq_some_iff, HaSays]

/-- The data operands that `HA` takes: none for a STORE, a number of the access's size for a read (R78, R79). -/
theorem answerData_of_fits {a : Access} {v : Option Text} {d : Option Data}
    (h : (a.cls = .store ∧ v = none ∧ d = none) ∨
      (a.cls ≠ .store ∧ ∃ w x, v = some w ∧ hexNum w = some x ∧ x < 2 ^ (8 * sizeBytes a.size) ∧
        d = some (BitVec.ofNat 64 x))) : answerData a v = some d := by
  unfold answerData
  rcases h with ⟨hc, rfl, rfl⟩ | ⟨hc, w, x, rfl, hw, hx, rfl⟩
  · rw [hc]
  · have hread : readValue a.size w = some (BitVec.ofNat 64 x) := by
      rw [readValue, (hexBelow_eq_some_iff _ _ _).2 ⟨hw, hx⟩]
      rfl
    cases hcls : a.cls with
    | store => exact absurd hcls hc
    | fetch | load => simp only [hread, Option.map_some]

theorem answerData_refused {a : Access} {v : Option Text}
    (h : (a.cls = .store ∧ v ≠ none) ∨ (a.cls ≠ .store ∧ ∀ w x, v = some w → hexNum w = some x →
      2 ^ (8 * sizeBytes a.size) ≤ x)) : answerData a v = none := by
  unfold answerData
  rcases h with ⟨hc, hv⟩ | ⟨hc, hv⟩
  · obtain ⟨w, rfl⟩ := Option.ne_none_iff_exists'.1 hv
    rw [hc]
  · cases v with
    | none =>
      cases hcls : a.cls with
      | store => exact absurd hcls hc
      | fetch | load => rfl
    | some w =>
      have hread : readValue a.size w = none := by
        rw [readValue, Option.map_eq_none_iff, Option.eq_none_iff_forall_ne_some]
        intro x hx
        obtain ⟨hx, hlt⟩ := (hexBelow_eq_some_iff _ _ _).1 hx
        exact absurd hlt (Nat.not_lt.2 (hv w x rfl hx))
      cases hcls : a.cls with
      | store => exact absurd hcls hc
      | fetch | load => simp only [hread, Option.map_none]

theorem runVerb_ha {ops : List Token} {n : SlotNo} {v : Option Text} (h : reads ops readHa = some (n, v)) (src : Source)
    (s : State) : runVerb .ha src ops s = match (s.slot n).filter (fun a => a.state == .held) with
      | none => (s, .refused .nh)
      | some a => match answerData a v with
        | none => (s, .refused .bo)
        | some d => departureAnswer n (s.answerHeld n .answered .ok d).clearance := by
  obtain ⟨o, hops, hn⟩ := (reads_eq_some_iff ops _ _).1 h
  simp only [runVerb_of_read hops, verbRule]
  cases hslot : (s.slot n).filter (fun a => a.state == .held) with
  | none => simp only [cmdHa, hn, hslot]
  | some a => cases hd : answerData a v <;> simp only [cmdHa, hn, hslot, hd]

theorem runVerb_hf {ops : List Token} {n : SlotNo} (h : reads ops (readDigit 16) = some n) (src : Source) (s : State) :
    runVerb .hf src ops s =
      if s.slotIs n .held then departureAnswer n (s.answerHeld n .failed .denied none).clearance else (s, .refused .nh) := by
  obtain ⟨o, hops, hn⟩ := (reads_eq_some_iff ops _ _).1 h
  simp only [runVerb_of_read hops, verbRule, cmdHf, hn]

theorem filter_held_of_notHeld {s : State} {n : SlotNo} (h : ∀ a, s.slot n = some a → a.state ≠ .held) :
    (s.slot n).filter (fun a => a.state == .held) = none := by
  rw [Option.eq_none_iff_forall_ne_some]
  intro a ha
  obtain ⟨ha, hst⟩ := Option.filter_eq_some_iff.1 ha
  exact h a ha (beq_iff_eq.1 hst)

/-- A held slot that a verb answers (R58, R78 to R80). -/
theorem exec_answersHeld {s : State} {src : Source} {v : Verb} {ops : List Token} {n : SlotNo} {a : Access} {g : NearTag}
    {o : RecordOutcome} {r : Reason} {d : Option Data} (hs : Serves s src) (ha : s.slot n = some a) (hg : a.tag = some g)
    (hr : runVerb v src ops s = departureAnswer n (s.answerHeld n o r d).clearance) :
    ∃ (t u : State), exec (verbRow v src ops) s = .next t ∧
      u = { s with
        hold := s.hold.filter (fun m => m != n)
        transit := { s.transit with slots := s.transit.slots.set n (some (answered a)) }
        near := { s.near with
          responses := s.near.responses ++ [{ tag := g, reason := r, data := d, slot := some n }] }
        log := logClosed s.log a.logSeq o r d } ∧
      t = { u.clearance.1 with console := t.console, preload := t.preload } ∧
      Accepted s t src v ops [] [fields '=' [[hexChar n.val], hexPlain u.clearance.2]] := by
  rw [State.answerHeld_eq o r d ha hg] at hr
  obtain ⟨t, hexec, hframe, haccepted⟩ := exec_departs hs hr rfl rfl rfl
  exact ⟨t, _, hexec, rfl, hframe, haccepted⟩

/-- Settles O33: the departure by `exec_answersHeld`, the data operand by `answerData_of_fits` and `answerData_refused`. -/
theorem haHfSettle : Obligations.HaHfSettle := by
  unfold Obligations.HaHfSettle
  intro s src ops n hs
  refine ⟨reads_readHa_iff ops n, reads_readDigit_iff ops n, fun v a g h ha hst hg => ?ha, fun v h hnot => ?haNotHeld,
    fun h => ?hf⟩
  case ha =>
    have hheld : (s.slot n).filter (fun a => a.state == .held) = some a :=
      Option.filter_eq_some_iff.2 ⟨ha, beq_iff_eq.2 hst⟩
    have hrun := runVerb_ha h src s
    rw [hheld] at hrun
    refine ⟨fun d hfits => ?_, fun hbad => ?_⟩
    · simp only [answerData_of_fits hfits] at hrun
      exact exec_answersHeld (v := .ha) hs ha hg hrun
    · simp only [answerData_refused hbad] at hrun
      exact exec_refused (v := .ha) hs hrun
  case haNotHeld =>
    have hrun := runVerb_ha h src s
    rw [filter_held_of_notHeld hnot] at hrun
    exact exec_refused (v := .ha) hs hrun
  case hf =>
    have hrun := runVerb_hf h src s
    refine ⟨fun a g ha hst hg => ?_, fun hnot => ?_⟩
    · rw [if_pos ((slotIs_iff s n _).2 ⟨a, ha, hst⟩)] at hrun
      exact exec_answersHeld (v := .hf) hs ha hg hrun
    · rw [if_neg (by simp [notHeld_of_forall hnot])] at hrun
      exact exec_refused (v := .hf) hs hrun

end Sys2Proof.Machine
end

section
/-! PROOFS. `FR` (R24, R25, Table 1-6): the reset goes through all slots, and what it does to one it does to each. -/

namespace Sys2Proof.Machine

/-! ### One slot -/

/-- A slot after a far link reset (Table 1-6). -/
def afterFarReset (x : Option Access) : Option Access :=
  x.filter (fun a => a.state != .issued && a.state != .orphan)

/-- The entry that answers an ISSUED slot at a far link reset (R24). -/
def abortEntry (x : Option Access) : Option RespEntry :=
  (x.filter (fun a => a.state == .issued)).bind (fun a =>
    a.tag.map (fun g => { tag := g, reason := .abort, data := none, slot := none }))

/-- The slot is ISSUED and names the record of this number. -/
def abortsRecord (x : Option Access) (q : Word) : Bool := x.any (fun a => a.state == .issued && a.logSeq == some q)

/-- A capture record that a far link reset closes, or not (R24, R107). -/
def abortedIf (b : Bool) (c : CaptureRecord) : CaptureRecord := if b then c.close .aborted (some .abort) none else c

theorem State.respondLoose_eq (s : State) (g : Option NearTag) (r : Reason) : s.respondLoose g r = { s with
    near := { s.near with responses := s.near.responses ++
      (g.map (fun g => { tag := g, reason := r, data := none, slot := none })).toList } } := by
  cases g with
  | none => simp [State.respondLoose]
  | some g => rfl

/-- The state after the far link reset of one slot. -/
def State.farResetSlot (s : State) (n : SlotNo) : State := { s with
  transit := { s.transit with slots := s.transit.slots.set n (afterFarReset (s.slot n)) }
  near := { s.near with responses := s.near.responses ++ (abortEntry (s.slot n)).toList }
  log := { s.log with records := s.log.records.map (fun c => abortedIf (abortsRecord (s.slot n) c.seq) c) } }

theorem records_map_notAborted (l : List CaptureRecord) : l.map (fun c => abortedIf false c) = l := by simp [abortedIf]

/-- A slot that a far link reset does not touch. -/
theorem State.farResetSlot_same {s : State} {n : SlotNo} {x : Option Access} (hx : s.slot n = x)
    (hafter : afterFarReset x = x) (hentry : abortEntry x = none) (hrecord : ∀ q, abortsRecord x q = false) :
    s.farResetSlot n = s := by
  have hset : s.transit.slots.set n x = s.transit.slots := by
    rw [← hx, State.slot]
    exact Vector.set_getElem_self ..
  simp only [State.farResetSlot, hx, hafter, hentry, hrecord, records_map_notAborted, hset, Option.toList_none, List.append_nil]

theorem logClosed_aborted (l : Log) (q : Option Word) :
    logClosed l q .aborted .abort none = { l with records := l.records.map (fun c => abortedIf (q == some c.seq) c) } := by
  cases q with
  | none => simp [logClosed, abortedIf]
  | some q =>
    simp only [logClosed, abortedIf, beq_iff_eq, Option.some.injEq, eq_comm (a := q)]

/-- One slot at a far link reset, with the numbers of entries and of freed orphans. -/
theorem farResetStep_eq (s : State) (i j : Nat) (n : SlotNo) :
    farResetStep (s, i, j) n =
      (s.farResetSlot n, i + (if s.slotIs n .issued then 1 else 0), j + (if s.slotIs n .orphan then 1 else 0)) := by
  unfold farResetStep
  dsimp only
  cases ha : s.slot n with
  | none =>
    rw [State.farResetSlot_same ha rfl rfl fun _ => rfl]
    simp [State.slotIs, ha]
  | some a =>
    cases hst : a.state with
    | issued =>
      have hloose : (s.respondLoose a.tag .abort).slot n = some a := by simp [ha]
      have hentry : abortEntry (some a) =
          a.tag.map (fun g => { tag := g, reason := .abort, data := none, slot := none }) := by
        simp [abortEntry, Option.filter, hst]
      have hrecord : ∀ q, abortsRecord (some a) q = (a.logSeq == some q) := fun q => by simp [abortsRecord, hst]
      have hafter : afterFarReset (some a) = none := by simp [afterFarReset, hst]
      dsimp only
      rw [State.closeRecord_eq .aborted .abort none hloose, State.respondLoose_eq, logClosed_aborted]
      simp only [State.farResetSlot, ha, hafter, hentry, hrecord, State.slotIs, Option.any_some, hst, State.setSlot,
        Vector.set_set]
      rfl
    | orphan =>
      have hentry : abortEntry (some a) = none := by simp [abortEntry, hst]
      have hrecord : ∀ q, abortsRecord (some a) q = false := fun q => by simp [abortsRecord, hst]
      have hafter : afterFarReset (some a) = none := by simp [afterFarReset, hst]
      simp only [State.farResetSlot, ha, hafter, hentry, hrecord, records_map_notAborted, State.slotIs, Option.any_some, hst,
        Option.toList_none, List.append_nil]
      rfl
    | held | queued | answering =>
      rw [State.farResetSlot_same ha (by simp [afterFarReset, hst]) (by simp [abortEntry, hst])
        fun q => by simp [abortsRecord, hst]]
      simp [State.slotIs, ha, hst]

/-! ### All slots -/

/-- The capture records after the reset of the slots `l` (R24). -/
def State.abortedRecords (s : State) (l : List SlotNo) : List CaptureRecord :=
  s.log.records.map (fun c => abortedIf (l.any (fun n => abortsRecord (s.slot n) c.seq)) c)

/-- The reset has gone through the slots `l` of `s`. -/
structure FarResetTo (s : State) (l : List SlotNo) (acc : State × Nat × Nat) : Prop where
  frame   : acc.1 = { s with
    transit := { s.transit with slots := acc.1.transit.slots }
    near := { s.near with responses := s.near.responses ++ l.filterMap (fun n => abortEntry (s.slot n)) }
    log := { s.log with records := s.abortedRecords l } }
  slot    : ∀ n, acc.1.slot n = if n ∈ l then afterFarReset (s.slot n) else s.slot n
  entries : acc.2.1 = (l.filter (fun n => s.slotIs n .issued)).length
  orphans : acc.2.2 = (l.filter (fun n => s.slotIs n .orphan)).length

@[simp] theorem abortedIf_seq (b : Bool) (c : CaptureRecord) : (abortedIf b c).seq = c.seq := by
  unfold abortedIf
  split <;> simp

theorem abortedIf_abortedIf (b b' : Bool) (c : CaptureRecord) : abortedIf b (abortedIf b' c) = abortedIf (b' || b) c := by
  have hclose : (c.close .aborted (some .abort) none).close .aborted (some .abort) none =
      c.close .aborted (some .abort) none := by
    unfold CaptureRecord.close
    cases hst : c.status <;> simp [hst]
  cases b <;> cases b' <;> simp [abortedIf, hclose]

theorem farReset_fold (s : State) {l : List SlotNo} (hl : l.Nodup) : FarResetTo s l (l.foldl farResetStep (s, 0, 0)) := by
  induction l using List.reverseRecOn with
  | nil => exact ⟨by simp [State.abortedRecords, abortedIf], fun n => rfl, rfl, rfl⟩
  | append_singleton l n ih =>
    have hnd := List.nodup_append.1 hl
    have hn : n ∉ l := fun hc => hnd.2.2 n hc n (List.mem_singleton_self n) rfl
    obtain ⟨⟨u, i, j⟩, hu⟩ : ∃ acc, l.foldl farResetStep (s, 0, 0) = acc := ⟨_, rfl⟩
    have hih := ih hnd.1
    rw [hu] at hih
    obtain ⟨hframe, hslot, hentries, horphans⟩ := hih
    dsimp only at hframe hslot hentries horphans
    have hun : u.slot n = s.slot n := by rw [hslot, if_neg hn]
    have his : ∀ st, u.slotIs n st = s.slotIs n st := fun st => by rw [State.slotIs, State.slotIs, hun]
    rw [List.foldl_append, hu, List.foldl_cons, List.foldl_nil, farResetStep_eq]
    refine ⟨?_, fun m => ?_, ?_, ?_⟩
    · have hrecords : u.log.records.map (fun c => abortedIf (abortsRecord (u.slot n) c.seq) c) = s.abortedRecords (l ++ [n]) := by
        have hlog : u.log.records = s.abortedRecords l := (congrArg (fun v : State => v.log.records) hframe :)
        rw [hlog, hun]
        simp [State.abortedRecords, abortedIf_abortedIf]
      have hentry : (l ++ [n]).filterMap (fun m => abortEntry (s.slot m)) =
          l.filterMap (fun m => abortEntry (s.slot m)) ++ (abortEntry (s.slot n)).toList := by
        rw [List.filterMap_append]
        cases hx : abortEntry (s.slot n) <;> simp [hx]
      dsimp only
      rw [State.farResetSlot, hrecords, hun, hentry]
      obtain ⟨U, rfl⟩ : ∃ U, u = { s with
        transit := { s.transit with slots := U }
        near := { s.near with responses := s.near.responses ++ l.filterMap (fun n => abortEntry (s.slot n)) }
        log := { s.log with records := s.abortedRecords l } } := ⟨_, hframe⟩
      simp only [List.append_assoc]
    · have hset : (u.farResetSlot n).slot = Function.update u.slot n (afterFarReset (u.slot n)) := slot_eq_update rfl
      dsimp only
      rw [hset, hun]
      by_cases hm : m = n
      · subst hm
        simp
      · rw [Function.update_of_ne hm, hslot]
        simp [hm]
    · simp only [his, hentries, List.filter_append, List.length_append]
      cases hx : s.slotIs n .issued <;> simp [hx]
    · simp only [his, horphans, List.filter_append, List.length_append]
      cases hx : s.slotIs n .orphan <;> simp [hx]

/-! ### Slot M, and the whole reset -/

theorem farResetM_eq (u : State) (i j : Nat) : farResetM (u, i, j) = ({ u with
      transit := { u.transit with slotM := u.transit.slotM.filter (fun m => m.state == .queued) }
      mem := { u.mem with inHand := if u.transit.slotM.any (fun m => m.state == .issued) then none else u.mem.inHand } },
    i, j + (if u.transit.slotM.any (fun m => m.state == .orphan) then 1 else 0)) := by
  obtain ⟨⟨slots, slotM, arrivals⟩, near, far, watch, hold, subst, log, time, alerts, ctrl, preload, console, mem, pending⟩ := u
  cases slotM with
  | none => rfl
  | some m =>
    unfold farResetM
    cases hst : m.state <;> simp [hst, Option.filter, State.setSlotM]

/-- The effect of `FR`, with the two numbers of its answer. -/
theorem State.farReset_eq (s : State) : ∃ U : Vector (Option Access) 16,
    s.farReset = ({ s with
        transit := { s.transit with slots := U, slotM := s.transit.slotM.filter (fun m => m.state == .queued) }
        near := { s.near with responses := s.near.responses ++ allSixteen.filterMap (fun n => abortEntry (s.slot n)) }
        far := { s.far with pulse := some 2 }
        log := { s.log with records := s.abortedRecords allSixteen }
        mem := { s.mem with inHand := if s.transit.slotM.any (fun m => m.state == .issued) then none else s.mem.inHand } },
      (allSixteen.filter (fun n => s.slotIs n .issued)).length,
      (allSixteen.filter (fun n => s.slotIs n .orphan)).length
        + (if s.transit.slotM.any (fun m => m.state == .orphan) then 1 else 0)) ∧
    ∀ n : SlotNo, U[n] = afterFarReset (s.slot n) := by
  have hall := farReset_fold s (List.nodup_finRange 16)
  unfold State.farReset
  change FarResetTo s allSixteen (allSixteen.foldl farResetStep (s, 0, 0)) at hall
  generalize allSixteen.foldl farResetStep (s, 0, 0) = acc at hall
  obtain ⟨u, i, j⟩ := acc
  obtain ⟨hframe, hslot, rfl, rfl⟩ := hall
  dsimp only at hframe hslot
  refine ⟨u.transit.slots, ?_, fun n => ?_⟩
  · rw [farResetM_eq]
    dsimp only
    rw [hframe]
  · have hn := hslot n
    rw [if_pos (show n ∈ allSixteen from List.mem_finRange n)] at hn
    exact hn

theorem runVerb_fr {ops : List Token} (h : (reads ops readNone).isSome = true) (src : Source) (s : State) :
    runVerb .fr src ops s = (s.farReset.1, answerFields [hexPlain s.farReset.2.1, hexPlain s.farReset.2.2]) := by
  obtain ⟨o, hops, hnone⟩ := readNone_of_reads h
  simp only [runVerb_of_read hops, verbRule, cmdFr, hnone]

theorem length_filterMap_of_isSome {α β : Type} (f : α → Option β) (p : α → Bool) (l : List α)
    (h : ∀ a ∈ l, (f a).isSome = p a) : (l.filterMap f).length = (l.filter p).length := by
  induction l with
  | nil => rfl
  | cons a l ih =>
    have ha := h a List.mem_cons_self
    have hl := ih fun b hb => h b (List.mem_cons_of_mem a hb)
    cases hf : f a <;> rw [hf] at ha <;> simp [← ha, hf, hl]

theorem abortsRecord_iff (s : State) (q : Word) : (∃ n b, s.slot n = some b ∧ b.state = .issued ∧ b.logSeq = some q) ↔
    allSixteen.any (fun n => abortsRecord (s.slot n) q) = true := by
  simp [allSixteen, abortsRecord, Option.any_eq_true]

/-- Settles O27: the line by `runVerb_fr`, its effect on every slot by `State.farReset_eq`. -/
theorem frResetsFarLink : Obligations.FrResetsFarLink := by
  unfold Obligations.FrResetsFarLink
  intro s src ops hs hops
  have hrun := runVerb_fr hops src s
  obtain ⟨U, hU, hslots⟩ := s.farReset_eq
  rw [hU] at hrun
  obtain ⟨t, hexec, hframe, haccepted⟩ := exec_answers (v := .fr) hs hrun rfl rfl rfl
  have hslot : ∀ n, t.slot n = afterFarReset (s.slot n) := fun n => by
    rw [State.slot, hframe]
    exact hslots n
  have hslotM : t.transit.slotM = s.transit.slotM.filter (fun m => m.state == .queued) := by rw [hframe]
  have hinHand : t.mem.inHand = if s.transit.slotM.any (fun m => m.state == .issued) then none else s.mem.inHand := by
    rw [hframe]
  have hrecords : t.log.records = s.abortedRecords allSixteen := by rw [hframe]
  refine ⟨t, allSixteen.filterMap (fun n => abortEntry (s.slot n)), (allSixteen.filter (fun n => s.slotIs n .issued)).length,
    (allSixteen.filter (fun n => s.slotIs n .orphan)).length
      + (if s.transit.slotM.any (fun m => m.state == .orphan) then 1 else 0), hexec, ?frame, haccepted, ?freed, ?kept, ?free,
    ?entries, rfl, ?queuedM, ?otherM, ?issuedM, ?notIssuedM,
    ?length, ?records⟩
  case frame =>
    have hslotsEq : t.transit.slots = U := by rw [hframe]
    rw [hslotM, hinHand, hrecords, hslotsEq]
    exact hframe
  case freed =>
    intro n b hb hst
    rw [hslot, hb]
    rcases hst with hst | hst <;> simp [afterFarReset, hst]
  case kept =>
    intro n b hb h1 h2
    rw [hslot, hb]
    simp [afterFarReset, h1, h2, Option.filter]
  case free =>
    intro n hn
    rw [hslot, hn]
    rfl
  case entries =>
    intro htags
    refine ⟨rfl, (length_filterMap_of_isSome _ _ _ fun n _ => ?_).symm⟩
    cases hn : s.slot n with
    | none => simp [State.slotIs, hn, abortEntry]
    | some b =>
      by_cases hst : b.state = .issued
      · obtain ⟨g, hg⟩ := Option.ne_none_iff_exists'.1 (htags n b hn hst)
        simp [State.slotIs, hn, abortEntry, Option.filter, hst, hg]
      · simp [State.slotIs, hn, abortEntry, Option.filter, hst]
  case queuedM =>
    intro m hm hst
    rw [hslotM, hm]
    simp [Option.filter, hst]
  case otherM =>
    intro hne
    rw [hslotM]
    cases hm : s.transit.slotM with
    | none => rfl
    | some m => simp [hne m hm, Option.filter]
  case issuedM =>
    intro m hm hst
    rw [hinHand, hm]
    simp [hst]
  case notIssuedM =>
    intro hne
    rw [hinHand]
    cases hm : s.transit.slotM with
    | none => rfl
    | some m => simp [hne m hm]
  case length => rw [hrecords, State.abortedRecords, List.length_map]
  case records =>
    intro i c hc
    rw [hrecords, State.abortedRecords, List.getElem?_map, hc, abortsRecord_iff, Option.map_some]
    refine ⟨fun hany => ?_, fun hany => ?_⟩
    · rw [hany]
      rfl
    · rw [Bool.not_eq_true] at hany
      rw [hany]
      rfl

end Sys2Proof.Machine
end

section
/-! PROOFS. The listings and reports (R26, R53, R75, R113, R145): their fields as the statements print them, and that they
change nothing. -/

namespace Sys2Proof.Machine

/-! ### Words and texts -/

theorem printedWords : PrintedWords := by
  unfold PrintedWords
  exact ⟨rfl, rfl, rfl, rfl, rfl, rfl, rfl, rfl, rfl, rfl, rfl, rfl, rfl⟩

theorem refusalTexts : RefusalTexts := by
  unfold RefusalTexts
  exact ⟨rfl, rfl, rfl, rfl, fun _ => rfl⟩

theorem noticeTexts : NoticeTexts := by
  unfold NoticeTexts
  refine ⟨fun n t e a => ?hd, fun n => rfl, fun n => rfl, fun f => ?fs, fun e => rfl, fun n => ?plOk, fun n c => ?plEr, rfl, rfl, rfl,
    rfl, rfl, fun n => ?nl⟩
  case hd =>
    rw [noticeText, orDash_eq]
    simp [fields, digit, digitOf, hexWord]
    rfl
  case fs => simp [noticeText, fields]
  case plOk => simp [noticeText, fields]
  case plEr => simp [noticeText, fields]
  case nl => simp [lostText, fields]

/-! ### The lines and fields -/

theorem slotLine_eq (n : SlotNo) (a : Access) : slotLine n a = fields '-' (tsFields n a) := by
  have hticks : remainingTicks a =
      if a.state = .held then a.holdTimer else if a.state = .issued then a.farTimer else none := by
    unfold remainingTicks
    cases a.state <;> rfl
  simp only [slotLine, tsFields, orDash_eq, hticks]
  rfl

theorem slotMLine_eq (m : MAccess) : slotMLine m = fields '-' (tsFieldsM m) := by
  have hticks : remainingTicksM m = if m.state = .issued then m.farTimer else none := by
    unfold remainingTicksM
    cases m.state <;> rfl
  simp only [slotMLine, tsFieldsM, orDash_eq, hticks]
  rfl

theorem holdLine_eq (n : SlotNo) (a : Access) : holdLine n a = fields '-' (hlFields n a) := by
  simp only [holdLine, hlFields, orDash_eq]
  rfl

theorem entryReport_eq (n : EntryNo) (e : WatchEntry) : entryReport n e = wqFields n e := by
  have hsource : armSourceText = fun x => match x with | .entry m => digitOf m | .trigger => ['T'] := by
    funext x
    cases x <;> rfl
  simp only [entryReport, wqFields, orDash_eq, classLetters_eq, flagText_eq, hsource]
  rfl

theorem statusReport_eq (s : State) : s.statusReport = stFields s := by
  have hslotM : slotMWord s.transit.slotM = match s.transit.slotM with | none => "FREE".toList | some m => mStateWord m.state := by
    unfold slotMWord
    cases s.transit.slotM <;> rfl
  have hbusy : s.busySlots = (allSixteen.filter (fun n => (s.slot n).isSome)).length := by
    rw [State.busySlots, List.countP_eq_length_filter]
  have hmode : logModeLetter s.log.mode = [match s.log.mode with | .wrap => 'W' | .stop => 'S'] := by
    unfold logModeLetter
    cases s.log.mode <;> rfl
  simp only [State.statusReport, stFields, orDash_eq, entryList_eq, paramFields_eq, hslotM, hbusy, hmode]
  rfl

/-! ### The verbs -/

theorem readLr_eq_some_iff (o : Operands) (q : Word) :
    readLr o = some q ↔ o.kws = [] ∧ ∃ w, o.pos = [w] ∧ w.length ≤ 8 ∧ hexNum w = some q.toNat := by
  obtain ⟨pos, kws⟩ := o
  unfold readLr
  split
  · rename_i p hpos hkws
    dsimp only at hpos hkws
    subst hpos hkws
    simp only [true_and, List.cons.injEq, and_true, exists_eq_left']
    exact hexDigits_map_iff (by decide) p q
  · rename_i hno
    simp only [reduceCtorEq, false_iff, not_and, not_exists]
    intro hkws w hpos
    exact absurd hkws (hno w hpos)

theorem reads_readLr_iff (ops : List Token) (q : Word) : reads ops readLr = some q ↔ LrSays ops q := by
  simp only [reads_eq_some_iff, readLr_eq_some_iff, LrSays]
  exact ⟨fun ⟨o, hops, hk, w, hp, hl, hw⟩ => ⟨o, w, hops, hk, hp, hl, hw⟩,
    fun ⟨o, w, hops, hk, hp, hl, hw⟩ => ⟨o, hops, hk, w, hp, hl, hw⟩⟩

section
variable {s : State} {src : Source} {ops : List Token} (hs : Serves s src)
include hs

/-- A verb that answers and changes nothing. -/
theorem exec_reports {v : Verb} {x : Text} {xs : List Text} (hr : runVerb v src ops s = (s, .lines (x :: xs))) :
    ∃ t, exec (verbRow v src ops) s = .next t ∧ t = { s with console := t.console, preload := t.preload } ∧
      Accepted s t src v ops [] (x :: xs) :=
  exec_accepted (ns := []) hs hr rfl rfl (gated_of_serves_preload hs)

/-- A listing: its lines and their number (R168). -/
theorem exec_lists {v : Verb} {items : List Text} (hr : runVerb v src ops s = (s, answerListing items)) :
    ∃ t, exec (verbRow v src ops) s = .next t ∧ t = { s with console := t.console, preload := t.preload } ∧
      Accepted s t src v ops [] (items ++ [fields '=' [hexPlain items.length]]) := by
  obtain ⟨x, xs, hx⟩ : ∃ x xs, items ++ [fields '=' [hexPlain items.length]] = x :: xs := List.exists_cons_of_ne_nil (by simp)
  rw [answerListing, hx] at hr
  rw [hx]
  exact exec_reports hs hr

end

theorem length_transitLines (s : State) : s.transitLines.length =
    (allSixteen.filter (fun n => (s.slot n).isSome)).length + (if s.transit.slotM.isSome then 1 else 0) := by
  rw [State.transitLines, List.length_append, length_filterMap_of_isSome _ (fun n => (s.slot n).isSome) _ fun n _ => by simp]
  cases s.transit.slotM <;> rfl

theorem transitLines_eq (s : State) : s.transitLines =
    allSixteen.filterMap (fun n => (s.slot n).map (fun a => fields '-' (tsFields n a)))
      ++ (s.transit.slotM.map (fun m => fields '-' (tsFieldsM m))).toList := by
  simp only [State.transitLines, ← slotLine_eq, ← slotMLine_eq]

theorem length_holdLines {s : State} (h : ∀ n ∈ s.hold, s.slot n ≠ none) :
    (s.hold.filterMap (fun n => (s.slot n).map (fun a => fields '-' (hlFields n a)))).length = s.hold.length := by
  rw [length_filterMap_of_isSome _ (fun _ => true) _ fun n hn => by simpa [Option.isSome_iff_ne_none] using h n hn,
    List.filter_true]

theorem find_record {l : List CaptureRecord} {q : Word} {i : Nat} {c : CaptureRecord} (hc : l[i]? = some c) (hq : c.seq = q)
    (hfirst : ∀ (j : Nat) d, j < i → l[j]? = some d → d.seq ≠ q) : l.find? (fun r => decide (r.seq = q)) = some c := by
  rw [List.find?_eq_some_iff_getElem]
  obtain ⟨hi, hget⟩ := List.getElem?_eq_some_iff.1 hc
  refine ⟨decide_eq_true hq, i, hi, hget, fun j hj => ?_⟩
  rw [Bool.not_eq_true', decide_eq_false_iff_not]
  exact hfirst j _ hj (List.getElem?_eq_getElem (hj.trans hi))

theorem runVerb_lr {ops : List Token} {q : Word} (h : reads ops readLr = some q) (src : Source) (s : State) :
    runVerb .lr src ops s = match s.log.records.find? (fun r => decide (r.seq = q)) with
      | none => (s, .refused .nf)
      | some r => (s, answerFields (lrFields r)) := by
  obtain ⟨o, hops, hq⟩ := (reads_eq_some_iff ops _ _).1 h
  simp only [runVerb_of_read hops, verbRule]
  cases hfind : s.log.records.find? (fun r => decide (r.seq = q)) <;> simp only [cmdLr, hq, hfind, recordReport_eq]

/-- Settles O28: each report's fields by its equation, and the line by its rule. -/
theorem reportsChangeNothing : Obligations.ReportsChangeNothing := by
  unfold Obligations.ReportsChangeNothing
  refine ⟨printedWords, refusalTexts, noticeTexts, fun s src ops hs => ⟨fun h => ?ts, fun h hheld => ?hl,
    reads_readDigit_iff ops, reads_readLr_iff ops, fun n h => ?wq, fun q i c h hc hq hfirst => ?lr, fun q h hnone => ?lrNone,
    fun h => ?st⟩⟩
  case ts =>
    obtain ⟨o, hops, hnone⟩ := readNone_of_reads h
    have hrun : runVerb .ts src ops s = (s, answerListing s.transitLines) := by
      simp only [runVerb_of_read hops, verbRule, cmdTs, hnone]
    rw [← length_transitLines, ← transitLines_eq]
    exact exec_lists (v := .ts) hs hrun
  case hl =>
    obtain ⟨o, hops, hnone⟩ := readNone_of_reads h
    have hrun : runVerb .hl src ops s =
        (s, answerListing (s.hold.filterMap (fun n => (s.slot n).map (fun a => fields '-' (hlFields n a))))) := by
      simp only [runVerb_of_read hops, verbRule, cmdHl, hnone, ← holdLine_eq]
    have hexec := exec_lists (v := .hl) hs hrun
    rwa [length_holdLines hheld] at hexec
  case wq =>
    obtain ⟨o, hops, hn⟩ := (reads_eq_some_iff ops _ _).1 h
    have hrun : runVerb .wq src ops s = (s, answerFields (wqFields n (s.entry n))) := by
      simp only [runVerb_of_read hops, verbRule, cmdWq, hn, entryReport_eq]
    exact exec_reports (v := .wq) hs hrun
  case lr =>
    have hrun := runVerb_lr h src s
    simp only [find_record hc hq hfirst] at hrun
    exact exec_reports (v := .lr) hs hrun
  case lrNone =>
    have hrun := runVerb_lr h src s
    have hfind : s.log.records.find? (fun r => decide (r.seq = q)) = none :=
      List.find?_eq_none.2 fun c hc => by simpa using hnone c hc
    simp only [hfind] at hrun
    exact exec_refused (v := .lr) hs hrun
  case st =>
    obtain ⟨o, hops, hnone⟩ := readNone_of_reads h
    have hrun : runVerb .st src ops s = (s, answerFields (stFields s)) := by
      simp only [runVerb_of_read hops, verbRule, cmdSt, hnone, statusReport_eq]
    exact exec_reports (v := .st) hs hrun

end Sys2Proof.Machine
end

section
/-! PROOFS. Printed numbers read back (R164, R191), and the general operand grammar (R164, R166). -/

namespace Sys2Proof.Machine

/-! ### Numbers -/

theorem hexVal_hexChar {d : Nat} (h : d < 16) : hexVal (hexChar d) = some d := by
  have hall : ∀ k : Fin 16, hexVal (hexChar k.val) = some k.val := by decide
  exact hall ⟨d, h⟩

theorem hexVal_lower_hexChar {d : Nat} (h : d < 16) : hexVal (hexChar d).toLower = some d := by
  have hall : ∀ k : Fin 16, hexVal (hexChar k.val).toLower = some k.val := by decide
  exact hall ⟨d, h⟩

theorem hexNumFrom_append (acc : Nat) (t : Text) (c : Char) :
    hexNumFrom acc (t ++ [c]) = (hexNumFrom acc t).bind (fun m => (hexVal c).map (fun d => m * 16 + d)) := by
  induction t generalizing acc with
  | nil => simp only [List.nil_append, hexNumFrom]; cases hexVal c <;> rfl
  | cons x t ih =>
    simp only [List.cons_append, hexNumFrom]
    cases hexVal x with
    | none => rfl
    | some d => exact ih _

theorem length_hexFixed (w n : Nat) : (hexFixed w n).length = w := by
  induction w generalizing n with
  | zero => rfl
  | succ w ih => rw [hexFixed, List.length_append, ih, List.length_singleton]

/-- The digits of a number, each rewritten by `f` into a character of the same value, read back as the number. -/
theorem hexNumFrom_map_hexFixed {f : Char → Char} (hf : ∀ d, d < 16 → hexVal (f (hexChar d)) = some d) {w n : Nat}
    (h : n < 16 ^ w) : hexNumFrom 0 ((hexFixed w n).map f) = some n := by
  induction w generalizing n with
  | zero =>
    obtain rfl : n = 0 := by simpa using h
    rfl
  | succ w ih =>
    have hdiv : n / 16 < 16 ^ w := by
      rw [Nat.pow_succ] at h
      omega
    rw [hexFixed, List.map_append, List.map_singleton, hexNumFrom_append, ih hdiv, Option.bind_some, hf _ (by omega)]
    simp only [Option.map_some, Option.some.injEq]
    omega

theorem hexNum_of_ne_nil {t : Text} (h : t ≠ []) : hexNum t = hexNumFrom 0 t := by
  rw [hexNum, if_neg (by simpa using h)]

theorem hexNum_map_hexFixed {f : Char → Char} (hf : ∀ d, d < 16 → hexVal (f (hexChar d)) = some d) {w n : Nat}
    (h : n < 16 ^ (w + 1)) : hexNum ((hexFixed (w + 1) n).map f) = some n := by
  rw [hexNum_of_ne_nil fun hc => by simpa [length_hexFixed] using congrArg List.length hc]
  exact hexNumFrom_map_hexFixed hf h

/-- Leading zeros do not change a number. -/
theorem hexNumFrom_dropWhile (t : Text) : hexNumFrom 0 (t.dropWhile (· == '0')) = hexNumFrom 0 t := by
  induction t with
  | nil => rfl
  | cons c t ih =>
    by_cases hc : c = '0'
    · rw [List.dropWhile_cons_of_pos (by simpa using hc), ih, hc]
      rfl
    · rw [List.dropWhile_cons_of_neg (by simpa using hc)]

theorem hexPlain_cases (n : Nat) (h : n < 16 ^ 16) : (n = 0 ∧ hexPlain n = ['0']) ∨
    (hexNum (hexPlain n) = some n ∧ (hexPlain n).head? ≠ some '0') := by
  have hread : hexNumFrom 0 ((hexFixed 16 n).dropWhile (· == '0')) = some n := by
    have hfixed := hexNumFrom_map_hexFixed (f := id) (fun d hd => hexVal_hexChar hd) h
    rw [List.map_id] at hfixed
    rw [hexNumFrom_dropWhile, hfixed]
  unfold hexPlain
  generalize hexFixed 16 n = digits at hread
  have hhead := List.head?_dropWhile_not (· == '0') digits
  cases ht : digits.dropWhile (· == '0') with
  | nil =>
    rw [ht] at hread
    exact .inl ⟨(Option.some.inj hread).symm, rfl⟩
  | cons c t =>
    rw [ht] at hread hhead
    refine .inr ⟨(hexNum_of_ne_nil (t := c :: t) (by simp)).trans hread, fun hc => ?_⟩
    rw [List.head?_cons, Option.some.injEq] at hc
    simp [hc] at hhead

/-- Settles O53: the digits by `hexNum_map_hexFixed`, in either case, and the count by `hexPlain_cases`. -/
theorem hexReadsBack : Obligations.HexReadsBack := by
  unfold Obligations.HexReadsBack
  intro w n h
  have hupper := hexNum_map_hexFixed (f := id) (fun d hd => hexVal_hexChar hd) h
  rw [List.map_id] at hupper
  refine ⟨hupper, hexNum_map_hexFixed (fun d hd => hexVal_lower_hexChar hd) h, length_hexFixed _ n, fun hw => ?_⟩
  have hbound : n < 16 ^ 16 := h.trans_le (Nat.pow_le_pow_right (by decide) hw)
  rcases hexPlain_cases n hbound with ⟨hzero, hplain⟩ | ⟨hread, hhead⟩
  · refine ⟨?_, fun _ => ⟨hzero, hplain⟩⟩
    rw [hplain, hzero]
    rfl
  · exact ⟨hread, fun hc => absurd hc hhead⟩

/-! ### Characters (R164) -/

theorem toNat_upper (c : Char) : (upper c).toNat = if 97 ≤ c.toNat ∧ c.toNat ≤ 122 then c.toNat - 32 else c.toNat := by
  unfold upper
  split
  · rename_i h
    rw [Char.toNat_ofNat, if_pos (Or.inl (by omega))]
  · rfl

theorem letter_iff (c : Char) : Letter c ↔ (65 ≤ c.toNat ∧ c.toNat ≤ 90) ∨ (97 ≤ c.toNat ∧ c.toNat ≤ 122) := Iff.rfl

theorem isLetter_iff (c : Char) : isLetter c = true ↔ Letter c := by
  rw [letter_iff, isLetter]
  simp only [Bool.and_eq_true, decide_eq_true_eq, toNat_upper]
  split <;> omega

theorem isAlnum_iff (c : Char) : isAlnum c = true ↔ Written c := by
  rw [isAlnum, Bool.or_eq_true, isLetter_iff, Written]
  refine or_congr Iff.rfl ?_
  simp only [isDigit, Bool.and_eq_true, decide_eq_true_eq]
  exact Iff.rfl

theorem not_written_equals : ¬ Written '=' := by
  rw [← isAlnum_iff]
  decide

/-! ### One token (R166) -/

/-- A token without an `=` that the grammar passes. -/
structure PlainToken (t : Token) : Prop where
  plain   : '=' ∉ t
  some    : t ≠ []
  room    : t.length ≤ 8
  written : ∀ c ∈ t, Written c

/-- A token with a letter, an `=` and a value that the grammar passes. -/
structure KeywordToken (t : Token) (k : Char) (v : Text) : Prop where
  split   : t = k :: '=' :: v
  letter  : Letter k
  some    : v ≠ []
  room    : v.length ≤ 16
  written : ∀ c ∈ v, Written c

theorem readToken_positional_iff (t : Token) (p : Text) :
    readToken t = some (.positional p) ↔ PlainToken t ∧ p = t.map upper := by
  unfold readToken
  by_cases he : t.contains '=' = true
  · rw [if_pos he]
    have hmem : '=' ∈ t := by simpa using he
    have hno : ¬ PlainToken t := fun h => h.plain hmem
    split
    · split <;> simp [hno]
    · simp [hno]
  · rw [if_neg he]
    have hmem : '=' ∉ t := by simpa using he
    have hgood : (!t.isEmpty && decide (t.length ≤ Config.positionalRoom) && t.all isAlnum) = true ↔ PlainToken t := by
      simp only [Bool.and_eq_true, Bool.not_eq_true', List.isEmpty_eq_false_iff, decide_eq_true_eq, List.all_eq_true,
        isAlnum_iff]
      exact ⟨fun ⟨⟨h1, h2⟩, h3⟩ => ⟨hmem, h1, h2, h3⟩, fun ⟨_, h1, h2, h3⟩ => ⟨⟨h1, h2⟩, h3⟩⟩
    split
    · rename_i h
      simp [hgood.1 h, eq_comm]
    · rename_i h
      simp [mt hgood.2 h]

theorem readToken_keyword_iff (t : Token) (k : Char) (v : Text) :
    readToken t = some (.keyword k v) ↔ ∃ k' v', KeywordToken t k' v' ∧ k = upper k' ∧ v = v'.map upper := by
  unfold readToken
  by_cases he : t.contains '=' = true
  · rw [if_pos he]
    split
    · rename_i k' e v'
      have hgood : (isLetter k' && e == '=' && !v'.isEmpty && decide (v'.length ≤ Config.valueRoom) && v'.all isAlnum) = true ↔
          e = '=' ∧ KeywordToken (k' :: e :: v') k' v' := by
        simp only [Bool.and_eq_true, Bool.not_eq_true', List.isEmpty_eq_false_iff, decide_eq_true_eq, List.all_eq_true,
          isAlnum_iff, isLetter_iff, beq_iff_eq]
        constructor
        · rintro ⟨⟨⟨⟨h1, rfl⟩, h2⟩, h3⟩, h4⟩
          exact ⟨rfl, rfl, h1, h2, h3, h4⟩
        · rintro ⟨he, -, h1, h2, h3, h4⟩
          exact ⟨⟨⟨⟨h1, he⟩, h2⟩, h3⟩, h4⟩
      split
      · rename_i h
        obtain ⟨-, hk⟩ := hgood.1 h
        constructor
        · intro heq
          cases heq
          exact ⟨k', v', hk, rfl, rfl⟩
        · rintro ⟨k'', v'', hk'', rfl, rfl⟩
          obtain ⟨rfl, h2⟩ := List.cons.inj hk''.split
          obtain ⟨-, rfl⟩ := List.cons.inj h2
          rfl
      · rename_i h
        simp only [reduceCtorEq, false_iff, not_exists, not_and]
        intro k'' v'' hk''
        obtain ⟨rfl, h2⟩ := List.cons.inj hk''.split
        obtain ⟨rfl, rfl⟩ := List.cons.inj h2
        exact absurd (hgood.2 ⟨rfl, hk''⟩) h
    · rename_i hno
      simp only [reduceCtorEq, false_iff, not_exists, not_and]
      intro k'' v'' hk''
      exact absurd hk''.split (hno _ _ _)
  · rw [if_neg he]
    have hmem : '=' ∉ t := by simpa using he
    have hno : ¬ ∃ k' v', KeywordToken t k' v' ∧ k = upper k' ∧ v = v'.map upper := by
      rintro ⟨k', v', hk, -⟩
      exact hmem (by simp [hk.split])
    split <;> simp [hno]

/-! ### The operands of a line (R164, R166) -/

/-- The grammar passes the token by itself. -/
def Passes (t : Token) : Prop := PlainToken t ∨ ∃ k v, KeywordToken t k v

/-- The grammar lets the token `u` stand behind the token `t`. -/
structure Follows (t u : Token) : Prop where
  equals  : '=' ∈ t → '=' ∈ u
  letters : ∀ a v b w, t = a :: '=' :: v → u = b :: '=' :: w → upper a ≠ upper b

/-- The grammar passes the operands. -/
structure GrammarOk (ops : List Token) : Prop where
  each  : ∀ t ∈ ops, Passes t
  order : ops.Pairwise Follows

theorem grammarOk_cons_iff (t : Token) (ts : List Token) :
    GrammarOk (t :: ts) ↔ Passes t ∧ GrammarOk ts ∧ ∀ u ∈ ts, Follows t u := by
  constructor
  · rintro ⟨heach, horder⟩
    obtain ⟨hfirst, hrest⟩ := List.pairwise_cons.1 horder
    exact ⟨heach t List.mem_cons_self, ⟨fun u hu => heach u (List.mem_cons_of_mem t hu), hrest⟩, hfirst⟩
  · rintro ⟨ht, ⟨heach, horder⟩, hfirst⟩
    exact ⟨List.forall_mem_cons.2 ⟨ht, heach⟩, List.pairwise_cons.2 ⟨hfirst, horder⟩⟩

theorem readToken_eq_none_iff (t : Token) : readToken t = none ↔ ¬ Passes t := by
  cases h : readToken t with
  | none =>
    refine iff_of_true rfl ?_
    rintro (hp | ⟨k, v, hk⟩)
    · simp [(readToken_positional_iff t _).2 ⟨hp, rfl⟩] at h
    · simp [(readToken_keyword_iff t _ _).2 ⟨k, v, hk, rfl, rfl⟩] at h
  | some x =>
    refine iff_of_false (by simp) (not_not.2 ?_)
    cases x with
    | positional p => exact .inl ((readToken_positional_iff t p).1 h).1
    | keyword k v =>
      obtain ⟨k', v', hk, -⟩ := (readToken_keyword_iff t k v).1 h
      exact .inr ⟨k', v', hk⟩

theorem PlainToken.follows {t : Token} (h : PlainToken t) (u : Token) : Follows t u where
  equals he := absurd he h.plain
  letters a v b w ht _ := absurd (by simp [ht]) h.plain

theorem written_plain {t : Token} (h : '=' ∉ t) (ts : List Token) :
    written (t :: ts) = { written ts with pos := t.map upper :: (written ts).pos } := by
  simp [written, h]

theorem written_keyword (k : Char) (v : Text) (ts : List Token) :
    written ((k :: '=' :: v) :: ts) =
      { written ts with kws := (upper k, v.map upper) :: (written ts).kws } := by
  simp [written]

theorem KeywordToken.equals {t : Token} {k : Char} {v : Text} (h : KeywordToken t k v) : '=' ∈ t := by simp [h.split]

/-- What the reader tests on the operands behind a keyword operand is that each may stand there. -/
theorem follows_keyword_iff {k : Char} {v : Text} {ts : List Token} (h : ∀ u ∈ ts, Passes u) :
    (∀ u ∈ ts, Follows (k :: '=' :: v) u) ↔
      (written ts).pos = [] ∧ upper k ∉ (written ts).kws.map Prod.fst := by
  have hpos : (written ts).pos = [] ↔ ∀ u ∈ ts, '=' ∈ u := by simp [written, List.filter_eq_nil_iff]
  rw [hpos]
  constructor
  · intro hall
    refine ⟨fun u hu => (hall u hu).equals (by simp), fun hmem => ?_⟩
    obtain ⟨u, hu, he, hk⟩ : ∃ u ∈ ts, '=' ∈ u ∧ upper (u.headD ' ') = upper k := by
      simpa [written, and_assoc] using hmem
    rcases h u hu with hp | ⟨b, w, hb⟩
    · exact hp.plain he
    · refine (hall u hu).letters k v b w rfl hb.split ?_
      rw [← hk, hb.split, List.headD_cons]
  · rintro ⟨heq, hmem⟩ u hu
    refine ⟨fun _ => heq u hu, fun a w b x ht hx hk => hmem ?_⟩
    obtain ⟨rfl, -⟩ := List.cons.inj ht
    rw [hk]
    simp only [written, List.map_map, List.mem_map, List.mem_filter]
    exact ⟨u, ⟨hu, by simpa using heq u hu⟩, by simp [hx]⟩

/-- The operands that the reader takes are those that the grammar passes, and it takes them as they are written. -/
theorem readOperands_iff (ops : List Token) (o : Operands) :
    readOperands ops = some o ↔ GrammarOk ops ∧ o = written ops := by
  induction ops generalizing o with
  | nil =>
    have hok : GrammarOk [] := ⟨by simp, List.Pairwise.nil⟩
    simp [readOperands, hok, written, eq_comm]
  | cons t ts ih =>
    rw [grammarOk_cons_iff]
    have hnot (h : readOperands ts = none) : ¬ GrammarOk ts := fun hok => by
      simp [(ih _).2 ⟨hok, rfl⟩] at h
    unfold readOperands
    cases ht : readToken t with
    | none => simp [(readToken_eq_none_iff t).1 ht]
    | some x =>
      cases hts : readOperands ts with
      | none => cases x <;> simp [hnot hts]
      | some r =>
        obtain ⟨hok, rfl⟩ := (ih r).1 hts
        cases x with
        | positional p =>
          obtain ⟨hp, rfl⟩ := (readToken_positional_iff t p).1 ht
          have hpass : Passes t := .inl hp
          simp [hok, hpass, hp.follows, written_plain hp.plain, eq_comm]
        | keyword k v =>
          obtain ⟨a, w, hk, rfl, rfl⟩ := (readToken_keyword_iff t k v).1 ht
          have hpass : Passes t := .inr ⟨a, w, hk⟩
          obtain rfl := hk.split
          simp only [follows_keyword_iff hok.each, hok, hpass, true_and, written_keyword, Option.ite_none_right_eq_some,
            Bool.and_eq_true, List.isEmpty_iff, Bool.not_eq_true', List.contains_eq_mem, decide_eq_false_iff_not,
            Option.some.injEq, eq_comm (a := o)]

/-! ### The cases of R166 -/

theorem KeywordToken.count {t : Token} {k : Char} {v : Text} (h : KeywordToken t k v) : t.count '=' = 1 := by
  have hk : k ≠ '=' := fun hc => not_written_equals (hc ▸ Or.inl h.letter)
  have hv : '=' ∉ v := fun hc => not_written_equals (h.written _ hc)
  rw [h.split]
  simp [List.count_eq_zero.2 hv, hk]

theorem Passes.character {t : Token} (h : Passes t) {c : Char} (hc : c ∈ t) : Written c ∨ c = '=' := by
  rcases h with hp | ⟨k, v, hk⟩
  · exact .inl (hp.written c hc)
  · rw [hk.split, List.mem_cons, List.mem_cons] at hc
    rcases hc with rfl | rfl | hv
    · exact .inl (.inl hk.letter)
    · exact .inr rfl
    · exact .inl (hk.written c hv)

theorem Passes.keyword {t : Token} (h : Passes t) (he : '=' ∈ t) : ∃ k v, KeywordToken t k v :=
  h.resolve_left fun hp => hp.plain he

theorem Passes.plain {t : Token} (h : Passes t) (he : '=' ∉ t) : PlainToken t :=
  h.resolve_right fun ⟨_, _, hk⟩ => he hk.equals

theorem GrammarOk.follows {ops : List Token} (h : GrammarOk ops) {i j : Nat} {t u : Token} (hij : i < j)
    (ht : ops[i]? = some t) (hu : ops[j]? = some u) : Follows t u := by
  obtain ⟨hi, rfl⟩ := List.getElem?_eq_some_iff.1 ht
  obtain ⟨hj, rfl⟩ := List.getElem?_eq_some_iff.1 hu
  exact List.pairwise_iff_getElem.1 h.order i j hi hj hij

theorem not_breaksGrammar {ops : List Token} (h : GrammarOk ops) : ¬ BreaksGrammar ops := by
  rintro (⟨t, ht, c, hc, hw, he⟩ | ⟨t, ht, he, hno⟩ | ⟨t, ht, k, rfl⟩ | ⟨t, ht, hcount⟩ | ⟨t, ht, k, v, rfl, hlong⟩ |
    ⟨t, ht, he, hlong⟩ | ⟨i, j, a, b, v, w, hij, hi, hj, hab⟩ | ⟨i, j, t, u, hij, hi, hj, ht, hu⟩)
  case character => exact ((h.each t ht).character hc).elim hw he
  case letter =>
    obtain ⟨k, v, hk⟩ := (h.each t ht).keyword he
    exact hno ⟨k, v, hk.split, hk.letter⟩
  case emptyValue =>
    obtain ⟨k', v, hk⟩ := (h.each _ ht).keyword (by simp)
    have hv : k' = k ∧ v = [] := by simpa using hk.split.symm
    exact hk.some hv.2
  case twoEquals =>
    rcases h.each t ht with hp | ⟨k, v, hk⟩
    · rw [List.count_eq_zero.2 hp.plain] at hcount
      omega
    · rw [hk.count] at hcount
      omega
  case longValue =>
    obtain ⟨k', v', hk⟩ := (h.each _ ht).keyword (by simp)
    obtain ⟨rfl, rfl⟩ : k = k' ∧ v = v' := by simpa using hk.split
    have hroom := hk.room
    omega
  case longPos =>
    have hroom := ((h.each t ht).plain he).room
    omega
  case twice => exact (h.follows hij hi hj).letters a v b w rfl rfl hab
  case posAfter => exact hu ((h.follows hij hi hj).equals ht)

theorem passes_of_not_breaks {ops : List Token} (h : ¬ BreaksGrammar ops) {t : Token} (ht : t ∈ ops) (hsome : t ≠ []) :
    Passes t := by
  have hchar : ∀ c ∈ t, c ≠ '=' → Written c := fun c hc he =>
    by_contra fun hw => h (.character ⟨t, ht, c, hc, hw, he⟩)
  by_cases he : '=' ∈ t
  · obtain ⟨k, v, rfl, hk⟩ : ∃ k v, t = k :: '=' :: v ∧ Letter k := by_contra fun hno => h (.letter ⟨t, ht, he, hno⟩)
    have hv : '=' ∉ v := fun hc => h (.twoEquals ⟨_, ht, by
      have hpos := List.count_pos_iff.2 hc
      simp only [List.count_cons, beq_self_eq_true, if_true]
      omega⟩)
    refine .inr ⟨k, v, rfl, hk, ?_, ?_, fun c hc => hchar c (by simp [hc]) fun hce => hv (hce ▸ hc)⟩
    · rintro rfl
      exact h (.emptyValue ⟨_, ht, k, rfl⟩)
    · by_contra hlong
      exact h (.longValue ⟨_, ht, k, v, rfl, by omega⟩)
  · refine .inl ⟨he, hsome, ?_, fun c hc => hchar c hc fun hce => he (hce ▸ hc)⟩
    by_contra hlong
    exact h (.longPos ⟨t, ht, he, by omega⟩)

theorem grammarOk_of_not_breaks {ops : List Token} (h : ¬ BreaksGrammar ops) (hsome : ∀ t ∈ ops, t ≠ []) :
    GrammarOk ops where
  each t ht := passes_of_not_breaks h ht (hsome t ht)
  order := by
    rw [List.pairwise_iff_getElem]
    intro i j hi hj hij
    have hti : ops[i]? = some ops[i] := List.getElem?_eq_getElem hi
    have htj : ops[j]? = some ops[j] := List.getElem?_eq_getElem hj
    refine ⟨fun ht => by_contra fun hu => h (.posAfter ⟨i, j, _, _, hij, hti, htj, ht, hu⟩), fun a v b w ha hb hab => ?_⟩
    exact h (.twice ⟨i, j, a, b, v, w, hij, ha ▸ hti, hb ▸ htj, hab⟩)

/-! ### The verbs' own checks (Table 10-5) -/

/-- A verb whose reader refuses the operands answers `?BO` before it looks at the state. -/
theorem verbRule_bo {v : Verb} {s : State} {ops : List Token} {o : Operands} (src : Source)
    (ho : readOperands ops = some o) (h : accepts v s ops = false) : verbRule v src o s = (s, .refused .bo) := by
  cases v <;>
    simp only [accepts, reads, ho, Option.bind_some, Option.isSome_eq_false_iff, Option.isNone_iff_eq_none] at h <;>
    simp only [verbRule, cmdFr, cmdTs, cmdWs, cmdWr, cmdWa, cmdWd, cmdWx, cmdWq, cmdHl, cmdHr, cmdHa, cmdHf, cmdRa, cmdSs,
      cmdSx, cmdSq, cmdLr, cmdLn, cmdLc, cmdLm, cmdAk, cmdGo, cmdBy, cmdFz, cmdTh, cmdCl, cmdSt, cmdSp, cmdMa, cmdMr,
      cmdMw, h]

theorem runVerb_bo {v : Verb} {s : State} {ops : List Token} (src : Source)
    (h : BreaksGrammar ops ∨ accepts v s ops = false) : runVerb v src ops s = (s, .refused .bo) := by
  unfold runVerb
  cases ho : readOperands ops with
  | none => rfl
  | some o =>
    have hok : GrammarOk ops := ((readOperands_iff ops o).1 ho).1
    exact verbRule_bo src ho (h.resolve_left (not_breaksGrammar hok))

/-- Settles O43: the reader takes exactly what the grammar passes (`readOperands_iff`), and every verb refuses the rest. -/
theorem badOperandsRefused : Obligations.BadOperandsRefused := by
  unfold Obligations.BadOperandsRefused
  refine ⟨fun v s src ops hs h => exec_refused hs (runVerb_bo src h), fun ops hsome hb => ?_, reads_readNone_iff⟩
  exact (readOperands_iff ops _).2 ⟨grammarOk_of_not_breaks hb hsome, rfl⟩

end Sys2Proof.Machine
end

section
/-! PROOFS. The laws of the state controller and of the console port (R133, R157, R167 to R178), which every step keeps. -/

namespace Sys2Proof.Machine

/-! ### The laws in the middle of an event -/

/-- The laws of the state controller, the memory port and the alert set of the running part. -/
structure CtrlLaw (s : State) : Prop where
  ret    : s.ctrl.ret.isSome = true ↔ s.ctrl.op = .frozen
  cursor : aligned s.mem.cursorAddr s.mem.cursorSize = true
  inHand : s.mem.inHand.isSome = true ↔ s.transit.slotM.any (fun m => m.state != .orphan) = true
  place  : ∀ h, s.mem.inHand = some h → aligned h.addr h.size = true
  alerts : s.alerts.Pairwise (fun a b => a < b)
  runs   : s.running

/-- The line IN SERVICE executes `MR` or `MW`. -/
def Console.executes (c : Console) : Bool := c.inService.any (fun v => v.stage == .executing)

/-- The laws that tie the console port to the operating state and the access in hand, but for what an event settles at its
end. -/
structure PortLaw (op : OpState) (i : Option InHand) (c : Console) : Prop where
  slots    : c.waiting.isSome = true → c.inService.isSome = true
  two      : ¬ (c.assembling.isSome = true ∧ c.waiting.isSome = true)
  room     : c.notices.length ≤ Config.noticeRoom
  response : c.response.isSome = true ↔ c.inService.any (fun v => v.stage == .responding) = true
  sending  : sendingResponse c = true → c.response.isSome = true
  executes : c.executes = true → i.isSome = true
  waits    : ∀ h, i = some h → h.party = .console → c.executes = true
  gated    : op = .gated → c.executes = false
  preload  : ∀ h, i = some h → h.party = .preload → op = .gated
  begun    : c.begunUnder.isSome = true → c.tx ≠ .idle
  lineRoom : ∀ a, c.assembling = some a → a.text.length ≤ Config.lineRoom

/-- A response whose last line is begun stays pending only while that line is sent. -/
def SentLaw (c : Console) : Prop := c.response = some [] → sendingResponse c = true

/-- The laws as they hold in the middle of an event of the running part. -/
structure Mid (s : State) : Prop where
  ctrl : CtrlLaw s
  port : PortLaw s.ctrl.op s.mem.inHand s.console
  sent : SentLaw s.console

theorem PortLaw.settle {op : OpState} {i : Option InHand} {c : Console} (h : PortLaw op i c) (hs : SentLaw c) :
    PortLaw op i (settle c) ∧ SentLaw (settle c) ∧
      ((settle c).tx = .idle → (settle c).response = none ∧ (settle c).notices = []) := by
  obtain ⟨hslots, htwo, hroom, hresponse, hsending, hexecutes, hwaits, hgated, hpreload, hbegun, hline⟩ := h
  unfold Machine.settle
  by_cases hidle : c.tx = .idle
  · rw [if_pos hidle]
    have hquiet : sendingResponse c = false := by rw [sendingResponse, hidle]
    have hnone : ¬ c.begunUnder.isSome = true := fun hc => hbegun hc hidle
    unfold chooseLine
    cases hr : c.response with
    | some ls =>
      cases ls with
      | nil =>
        have hsent := hs hr
        rw [hquiet] at hsent
        cases hsent
      | cons l ls =>
        rw [hr] at hresponse
        exact ⟨⟨hslots, htwo, hroom, hresponse, fun _ => rfl, hexecutes, hwaits, hgated, hpreload,
          fun hc => absurd hc hnone, hline⟩, fun _ => rfl, (by intro hc; cases hc)⟩
    | none =>
      cases hn : c.notices with
      | nil =>
        exact ⟨⟨hslots, htwo, hroom, hresponse, hsending, hexecutes, hwaits, hgated, hpreload, hbegun, hline⟩, hs,
          fun _ => ⟨hr, hn⟩⟩
      | cons n ns =>
        have hroom' : ns.length ≤ Config.noticeRoom := by
          rw [hn, List.length_cons] at hroom
          omega
        rw [hr] at hresponse
        dsimp only
        split <;>
          exact ⟨⟨hslots, htwo, hroom', hresponse, (by intro hc; cases hc), hexecutes, hwaits, hgated, hpreload,
            fun hc => absurd hc hnone, hline⟩, (by intro hc; cases hc), (by intro hc; cases hc)⟩
  · rw [if_neg hidle]
    exact ⟨⟨hslots, htwo, hroom, hresponse, hsending, hexecutes, hwaits, hgated, hpreload, hbegun, hline⟩, hs,
      fun hc => absurd hc hidle⟩

/-- What holds in the middle of an event is, with the choice of a line at its end, the law. -/
theorem Mid.kick {s : State} (h : Mid s) : ControlOk s.kick ∧ ConsoleOk s.kick := by
  obtain ⟨⟨hret, hcursor, hhand, hplace, halerts, hruns⟩, hport, hsent⟩ := h
  obtain ⟨⟨hslots, htwo, hroom, hresponse, hsending, hexecutes, hwaits, hgated, hpreload, hbegun, hline⟩, hsent', hidle⟩ :=
    hport.settle hsent
  rw [State.kick_eq]
  refine ⟨⟨hret, hcursor, hhand, hplace, halerts, fun hpor => ?_⟩, ?_⟩
  · have hfalse : s.ctrl.por = true := hpor
    rw [hruns] at hfalse
    cases hfalse
  · exact ⟨hslots, htwo, hroom, hresponse, hsending, hsent', hexecutes, hwaits, hgated, hpreload, hidle, hbegun, hline⟩

theorem Mid.of_laws {s : State} (hc : ControlOk s) (hp : ConsoleOk s) (hruns : s.running) : Mid s where
  ctrl := ⟨hc.ret, hc.cursor, hc.inHand, hc.place, hc.alerts, hruns⟩
  port := ⟨hp.slots, hp.two, hp.room, hp.response, hp.sending, hp.executes, hp.waits, hp.gated, hp.preload, hp.begun,
    hp.lineRoom⟩
  sent := hp.unsent

/-! ### Changes beside the controller and the port -/

/-- `d` is `c` but for notices offered within the room of the queue. -/
structure Noticed (c d : Console) : Prop where
  apart : NoticesApart c d
  room  : c.notices.length ≤ Config.noticeRoom → d.notices.length ≤ Config.noticeRoom

theorem Noticed.of_eq {c d : Console} (h : d = c) : Noticed c d := ⟨.of_eq h, fun hr => h ▸ hr⟩

theorem Noticed.trans {c d e : Console} (h : Noticed c d) (k : Noticed d e) : Noticed c e where
  apart := k.apart.trans (by rw [h.apart])
  room hr := k.room (h.room hr)

theorem offerNotice_noticed (q : Bool) (n : Notice) (c : Console) : Noticed c (offerNotice q n c) where
  apart := offerNotice_rest q n c
  room hr := by
    unfold offerNotice
    split_ifs with hq hroom
    · exact hr
    · simpa using hroom
    · exact hr

theorem PortLaw.noticed {op : OpState} {i : Option InHand} {c d : Console} (h : PortLaw op i c) (k : Noticed c d) :
    PortLaw op i d := by
  rw [k.apart]
  exact ⟨h.slots, h.two, k.room h.room, h.response, h.sending, h.executes, h.waits, h.gated, h.preload, h.begun, h.lineRoom⟩

theorem SentLaw.noticed {c d : Console} (h : SentLaw c) (k : Noticed c d) : SentLaw d := by
  rw [k.apart]
  exact h

theorem Noticed.inService {c d : Console} (h : Noticed c d) : d.inService = c.inService := (congrArg Console.inService h.apart :)

theorem Noticed.response {c d : Console} (h : Noticed c d) : d.response = c.response := (congrArg Console.response h.apart :)

theorem Noticed.executes {c d : Console} (h : Noticed c d) : d.executes = c.executes := by
  rw [Console.executes, h.inService, Console.executes]

/-- From `s` to `t` nothing changed in the state controller's state, the memory port, the occupation of slot M, the alert set
and the console port but for notices. -/
structure Beside (s t : State) : Prop where
  op     : t.ctrl.op = s.ctrl.op
  ret    : t.ctrl.ret = s.ctrl.ret
  por    : t.ctrl.por = s.ctrl.por
  mem    : t.mem = s.mem
  slotM  : t.transit.slotM.any (fun m => m.state != .orphan) = s.transit.slotM.any (fun m => m.state != .orphan)
  alerts : t.alerts = s.alerts
  port   : Noticed s.console t.console

namespace Beside

theorem of_eq {s t : State} (hctrl : t.ctrl = s.ctrl) (hmem : t.mem = s.mem) (hslotM : t.transit.slotM = s.transit.slotM)
    (halerts : t.alerts = s.alerts) (hport : t.console = s.console) : Beside s t :=
  ⟨by rw [hctrl], by rw [hctrl], by rw [hctrl], hmem, by rw [hslotM], halerts, .of_eq hport⟩

theorem refl (s : State) : Beside s s := .of_eq rfl rfl rfl rfl rfl

theorem trans {s t u : State} (h : Beside s t) (k : Beside t u) : Beside s u :=
  ⟨k.op.trans h.op, k.ret.trans h.ret, k.por.trans h.por, k.mem.trans h.mem, k.slotM.trans h.slotM,
    k.alerts.trans h.alerts, h.port.trans k.port⟩

theorem raise (s : State) (n : Notice) : Beside s (s.raise n) :=
  ⟨rfl, rfl, rfl, rfl, rfl, rfl, offerNotice_noticed _ n _⟩

/-- A fold over slots stays beside when each of its steps does. -/
theorem foldl {α β : Type} {f : State × β → α → State × β} (hf : ∀ acc a, Beside acc.1 (f acc a).1) (l : List α)
    (acc : State × β) : Beside acc.1 (l.foldl f acc).1 := by
  induction l generalizing acc with
  | nil => exact .refl _
  | cons a l ih => exact (hf acc a).trans (ih _)

theorem foldl_state {α : Type} {f : State → α → State} (hf : ∀ s a, Beside s (f s a)) (l : List α) (s : State) :
    Beside s (l.foldl f s) := by
  induction l generalizing s with
  | nil => exact .refl _
  | cons a l ih => exact (hf s a).trans (ih _)

theorem ctrlLaw {s t : State} (h : Beside s t) (hs : CtrlLaw s) : CtrlLaw t where
  ret := by rw [h.ret, h.op]; exact hs.ret
  cursor := by rw [h.mem]; exact hs.cursor
  inHand := by rw [h.mem, h.slotM]; exact hs.inHand
  place := by rw [h.mem]; exact hs.place
  alerts := by rw [h.alerts]; exact hs.alerts
  runs := h.por.trans hs.runs

theorem mid {s t : State} (h : Beside s t) (hs : Mid s) : Mid t where
  ctrl := h.ctrlLaw hs.ctrl
  port := by rw [h.op, h.mem]; exact hs.port.noticed h.port
  sent := hs.sent.noticed h.port

end Beside

theorem Mid.raise {s : State} (h : Mid s) (n : Notice) : Mid (s.raise n) := (Beside.raise s n).mid h

/-! ### Operations beside the controller -/

theorem clearance_beside (s : State) : Beside s s.clearance.1 := by
  refine Beside.foldl (fun acc n => ?_) s.hold (s, 0)
  unfold clearStep
  split_ifs
  · exact .of_eq (by simp) (by simp) (by simp) (by simp) (by simp)
  · exact .refl _

theorem walk_beside (s : State) : Beside s s.walk.1 := by
  refine Beside.foldl (fun acc n => ?_) s.hold (s, 0)
  unfold walkStep
  split_ifs
  · exact .of_eq (by simp) (by simp) (by simp) (by simp) (by simp)
  · exact .of_eq (by simp) (by simp) (by simp) (by simp) (by simp)
  · exact .refl _

theorem releaseAll_beside (s : State) : Beside s s.releaseAll.1 := (walk_beside s).trans (clearance_beside _)

theorem farResetStep_beside (acc : State × Nat × Nat) (n : SlotNo) : Beside acc.1 (farResetStep acc n).1 := by
  unfold farResetStep
  split
  · exact .refl _
  · split <;> exact .of_eq (by simp) (by simp) (by simp) (by simp) (by simp)

theorem nearResetSlot_beside (s : State) (n : SlotNo) : Beside s (s.nearResetSlot n) := by
  unfold State.nearResetSlot
  split
  · exact .refl s
  · split <;> exact .of_eq (by simp) (by simp) (by simp) (by simp) (by simp)

theorem assertNearReset_beside (s : State) : Beside s s.assertNearReset := by
  unfold State.assertNearReset
  split_ifs
  · exact .refl s
  · have hfold := Beside.foldl_state nearResetSlot_beside allSixteen s
    generalize allSixteen.foldl State.nearResetSlot s = u at hfold
    refine hfold.trans (Beside.trans ?_ (.raise _ _))
    exact .of_eq rfl rfl rfl rfl rfl

theorem holdForDecision_beside (s : State) (n : SlotNo) (r : HoldReason) : Beside s (s.holdForDecision n r) := by
  unfold State.holdForDecision
  split
  · exact .refl s
  · dsimp only
    split
    · refine Beside.trans ?_ (.raise _ _)
      exact .of_eq rfl rfl rfl rfl rfl
    · exact .of_eq rfl rfl rfl rfl rfl

theorem farToSlot_beside (s : State) (n : SlotNo) (r : FarResponse) : Beside s (s.farToSlot n r) := by
  unfold State.farToSlot
  split
  · exact .raise s _
  · split
    · unfold State.completeSlot
      dsimp only
      split_ifs <;> exact .of_eq (by simp) (by simp) (by simp) (by simp) (by simp)
    · exact .of_eq (by simp) (by simp) (by simp) (by simp) (by simp)
    · exact .raise s _
    · exact .raise s _
    · exact .raise s _

theorem timeOut_beside (s : State) (n : SlotNo) : Beside s (s.timeOut n) := by
  unfold State.timeOut
  split
  · exact .refl s
  · refine Beside.trans ?_ (.raise _ _)
    exact .of_eq (by simp) (by simp) (by simp) (by simp) (by simp)

theorem expire_beside (s : State) (n : SlotNo) : Beside s (s.expire n) := by
  unfold State.expire
  split
  · refine (Beside.trans ?_ (.raise _ _)).trans (clearance_beside _)
    exact .of_eq (by simp) (by simp) (by simp) (by simp) (by simp)
  · split_ifs
    · refine Beside.trans ?_ (.raise _ _)
      exact .of_eq (by simp) (by simp) (by simp) (by simp) (by simp)
    · refine (Beside.trans ?_ (.raise _ _)).trans (clearance_beside _)
      exact .of_eq (by simp) (by simp) (by simp) (by simp) (by simp)

theorem deliver_beside (s : State) : Beside s s.deliver := by
  unfold State.deliver
  split
  · exact .refl s
  · unfold State.freeNamed
    split <;> exact .of_eq rfl rfl rfl rfl rfl

theorem tickAll_beside (s : State) : Beside s s.tickAll where
  op := rfl
  ret := rfl
  por := rfl
  mem := rfl
  slotM := by
    unfold State.tickAll
    cases s.transit.slotM <;> rfl
  alerts := rfl
  port := .of_eq rfl

theorem issueForward_beside (s : State) : Beside s s.issueForward := by
  unfold State.issueForward
  split
  · exact .refl s
  · exact .of_eq (by simp) (by simp) (by simp) (by simp) (by simp)

theorem markWinner_beside (s : State) (c : Contender) : Beside s (s.markWinner c) := by
  unfold State.markWinner
  split_ifs
  · exact .of_eq rfl rfl rfl rfl rfl
  · exact .refl s

theorem issueSlotM_beside {s : State} (h : s.slotMWaits = true) : Beside s s.issueSlotM := by
  unfold State.issueSlotM
  cases hm : s.transit.slotM with
  | none => exact .refl s
  | some m =>
    have hq : m.state = .queued := by simpa [State.slotMWaits, hm] using h
    exact ⟨rfl, rfl, rfl, rfl, by simp [State.setSlotM, hm, hq]; rfl, rfl, .of_eq rfl⟩

theorem slotMWaits_of_chosen {s : State} (h : s.chosen = some .slotM) : s.slotMWaits = true := by
  unfold State.chosen at h
  split at h
  · cases h
  · assumption
  · cases h
  · assumption

theorem issue_beside (s : State) : Beside s s.issue := by
  unfold State.issue
  split_ifs
  · exact .refl s
  · split
    · exact .refl s
    · exact (markWinner_beside s _).trans (issueForward_beside _)
    · rename_i hchosen
      have hwaits : (s.markWinner .slotM).slotMWaits = true := by
        simpa [State.slotMWaits] using slotMWaits_of_chosen hchosen
      exact (markWinner_beside s _).trans (issueSlotM_beside hwaits)

/-! ### Acceptance -/

theorem CtrlLaw.not_preload {s : State} (hp : PortLaw s.ctrl.op s.mem.inHand s.console) (hop : s.ctrl.op ≠ .gated) :
    ∀ h, s.mem.inHand = some h → h.party ≠ .preload := fun h hi hparty => hop (hp.preload h hi hparty)

/-- The operating state may change when no preload line waits for an access. -/
theorem PortLaw.enter {op : OpState} {i : Option InHand} {c : Console} (h : PortLaw op i c) {o : OpState}
    (hfree : ∀ x, i = some x → x.party ≠ .preload) (ho : o ≠ .gated) : PortLaw o i c :=
  ⟨h.slots, h.two, h.room, h.response, h.sending, h.executes, h.waits, fun hc => absurd hc ho,
    fun x hi hparty => absurd hparty (hfree x hi), h.begun, h.lineRoom⟩

theorem joinAlerts_pairwise (e : EntryNo) (l : List EntryNo) : (joinAlerts e l).Pairwise (fun a b => a < b) := by
  have hall : allSixteen.Pairwise (fun a b => a < b) := by decide
  exact hall.filter _

theorem Mid.joinAlert {s : State} (h : Mid s) (e : EntryNo) : Mid (s.joinAlert e) := by
  unfold State.joinAlert
  split_ifs
  · exact h
  · obtain ⟨⟨hret, hcursor, hhand, hplace, -, hruns⟩, hport, hsent⟩ := h
    exact Mid.raise (s := { s with alerts := joinAlerts e s.alerts })
      ⟨⟨hret, hcursor, hhand, hplace, joinAlerts_pairwise e s.alerts, hruns⟩, hport, hsent⟩ (.al e)

theorem Mid.raiseAlerts {s : State} (h : Mid s) (fired : List EntryNo) : Mid (s.raiseAlerts fired) := by
  unfold State.raiseAlerts
  generalize fired.filter (fun n => (s.entry n).alert) = l
  induction l generalizing s with
  | nil => exact h
  | cons e l ih => exact ih (h.joinAlert e)

theorem Mid.freeze {s : State} (h : Mid s) (r : ReturnState) (hop : s.ctrl.op ≠ .gated) : Mid (s.freeze r) := by
  obtain ⟨⟨hret, hcursor, hhand, hplace, halerts, hruns⟩, hport, hsent⟩ := h
  refine Mid.raise (s := { s with ctrl := { s.ctrl with op := .frozen, ret := some r } })
    ⟨⟨?_, hcursor, hhand, hplace, halerts, hruns⟩, ?_, hsent⟩ .fz
  · exact iff_of_true rfl rfl
  · exact hport.enter (CtrlLaw.not_preload hport hop) (fun hc => by cases hc)

theorem recordJudged_beside (s : State) (n : SlotNo) (req : NearRequest) (fired : List EntryNo) (owner : Option EntryNo)
    (act : Option Action) : Beside s (s.recordJudged n req fired owner act) := by
  unfold State.recordJudged
  split
  · split_ifs
    · unfold State.makeRecord
      split <;> exact .of_eq (by simp) (by simp) (by simp) (by simp) (by simp)
    · exact .refl s
  · exact .refl s

theorem placeForward_beside (s : State) (n : SlotNo) : Beside s (s.placeForward n) :=
  .of_eq (by simp) (by simp) (by simp) (by simp) (by simp)

theorem takeSlot_beside (s : State) (n : SlotNo) (a : Access) : Beside s (s.takeSlot n a) := .of_eq rfl rfl rfl rfl rfl

theorem placeJudged_beside (s : State) (n : SlotNo) (d : Disposition) : Beside s (s.placeJudged n d) := by
  cases d with
  | forward => exact placeForward_beside s n
  | substitute =>
    exact Beside.of_eq (s.placeSubstitute_ctrl n) (s.placeSubstitute_mem n) (s.placeSubstitute_transit_slotM n)
      (s.placeSubstitute_alerts n) (s.placeSubstitute_console n)
  | hold => exact holdForDecision_beside s n .watch
  | align => exact .refl s

theorem State.raiseAlerts_ctrl (s : State) (fired : List EntryNo) : (s.raiseAlerts fired).ctrl = s.ctrl := by
  unfold State.raiseAlerts
  generalize fired.filter (fun n => (s.entry n).alert) = l
  induction l generalizing s with
  | nil => rfl
  | cons e l ih => exact (ih _).trans (s.joinAlert_ctrl e)

theorem judgeEntries_beside (s : State) (j : Judged) : Beside s (s.judgeEntries j) :=
  .of_eq (by simp) (by simp) (by simp) (by simp) (by simp)

theorem Mid.acceptJudged {s : State} (h : Mid s) (n : SlotNo) (req : NearRequest) (hop : s.ctrl.op ≠ .gated) :
    Mid (s.acceptJudged n req) := by
  unfold State.acceptJudged
  dsimp only
  generalize s.winning (s.firedEntries (judgedOf req)) = act
  generalize s.ownerOf (s.firedEntries (judgedOf req)) = owner
  generalize s.firedEntries (judgedOf req) = fired
  have hb := (judgeEntries_beside (s.raiseAlerts fired) (judgedOf req)).trans
    ((takeSlot_beside _ n (newAccess req s.transit.arrivals (dispOfAction act) owner)).trans
      ((recordJudged_beside _ n req fired owner act).trans (placeJudged_beside _ n (dispOfAction act))))
  have hmid := hb.mid (h.raiseAlerts fired)
  have hfrozen := hmid.freeze .watch (by rw [hb.op, s.raiseAlerts_ctrl]; exact hop)
  split_ifs
  · exact hfrozen.raise _
  · exact hmid.raise _
  · exact hfrozen
  · exact hmid

theorem Mid.offerRequest {s : State} (h : Mid s) (req : NearRequest) : Mid (s.offerRequest req) := by
  unfold State.offerRequest
  split_ifs with hm
  · split
    · rename_i n _
      have hop : s.ctrl.op ≠ .gated := by
        simp only [State.mayAccept, Bool.and_eq_true, Bool.not_eq_true', beq_eq_false_iff_ne] at hm
        obtain ⟨⟨⟨hop, -⟩, -⟩, -⟩ := hm
        exact hop
      unfold State.accept
      split_ifs
      · split
        · exact h
        · exact ((takeSlot_beside s n _).trans (placeForward_beside _ n)).mid h
        · exact ((takeSlot_beside s n _).trans (holdForDecision_beside _ n .freeze)).mid h
        · exact h.acceptJudged n req hop
      · have hb : Beside s (s.acceptMisaligned n req) := .of_eq rfl rfl rfl rfl rfl
        exact hb.mid h
    · exact h
  · exact h

/-! ### The rules of the verbs -/

/-- The answer is given at once, and it is not empty. -/
def AtOnce : Answer → Prop
  | .lines ls => ls ≠ []
  | .settings _ => True
  | .refused _ => True
  | .begun => False

/-- What the rule of a verb, run from this source, does to the controller and the port. -/
structure Ran (s : State) (src : Source) (r : State × Answer) : Prop where
  ctrl  : CtrlLaw r.1
  port  : Noticed s.console r.1.console
  gated : r.1.ctrl.op = .gated → s.ctrl.op = .gated
  hand  : (AtOnce r.2 ∧ (r.1.mem.inHand = s.mem.inHand ∨ r.1.mem.inHand = none)) ∨
            (r.2 = .begun ∧ (∃ h, r.1.mem.inHand = some h ∧ h.party = partyOf src) ∧ r.1.ctrl.op = s.ctrl.op)

theorem Ran.of_beside {s t : State} {src : Source} {a : Answer} (hs : CtrlLaw s) (h : Beside s t) (ha : AtOnce a) :
    Ran s src (t, a) :=
  ⟨h.ctrlLaw hs, h.port, fun hc => h.op ▸ hc, .inl ⟨ha, .inl (by rw [h.mem])⟩⟩

theorem Ran.refused {s : State} {src : Source} (hs : CtrlLaw s) (c : Code) : Ran s src (s, .refused c) :=
  .of_beside hs (.refl s) trivial

theorem atOnce_fields (fs : List Text) : AtOnce (answerFields fs) := List.cons_ne_nil _ _

theorem atOnce_listing (items : List Text) : AtOnce (answerListing items) := by simp [AtOnce, answerListing]

/-- A rule that answers with fields and works beside the controller. -/
theorem Ran.fields {s t : State} {src : Source} (hs : CtrlLaw s) (h : Beside s t) (fs : List Text) :
    Ran s src (t, answerFields fs) := .of_beside hs h (atOnce_fields fs)

/-- A rule that changes the operating state alone and answers with fields. -/
theorem Ran.enter {s : State} {src : Source} (hs : CtrlLaw s) {o : OpState} {r : Option ReturnState} (fs : List Text)
    (hret : r.isSome = true ↔ o = .frozen) (ho : o ≠ .gated) :
    Ran s src ({ s with ctrl := { s.ctrl with op := o, ret := r } }, answerFields fs) where
  ctrl := ⟨hret, hs.cursor, hs.inHand, hs.place, hs.alerts, hs.runs⟩
  port := .of_eq rfl
  gated hc := absurd hc ho
  hand := .inl ⟨atOnce_fields fs, .inl rfl⟩

theorem Ran.raised {s t : State} {src : Source} {a : Answer} (h : Ran s src (t, a)) (n : Notice) :
    Ran s src (t.raise n, a) :=
  ⟨(Beside.raise t n).ctrlLaw h.ctrl, h.port.trans (offerNotice_noticed _ n _), h.gated, h.hand⟩

theorem CtrlLaw.farResetM {acc : State × Nat × Nat} (h : CtrlLaw acc.1) : CtrlLaw (farResetM acc).1 := by
  obtain ⟨hret, hcursor, hhand, hplace, halerts, hruns⟩ := h
  unfold Machine.farResetM
  cases hm : acc.1.transit.slotM with
  | none => exact ⟨hret, hcursor, hhand, hplace, halerts, hruns⟩
  | some m =>
    rw [hm] at hhand
    dsimp only
    cases hst : m.state with
    | issued => exact ⟨hret, hcursor, by simp [State.setSlotM], (by intro x hx; cases hx), halerts, hruns⟩
    | orphan =>
      refine ⟨hret, hcursor, ?_, hplace, halerts, hruns⟩
      rw [Option.any_some, hst] at hhand
      exact hhand.trans (by simp [State.setSlotM])
    | queued =>
      refine ⟨hret, hcursor, ?_, hplace, halerts, hruns⟩
      rw [hm]
      exact hhand

theorem farResetM_ctrl (acc : State × Nat × Nat) : (farResetM acc).1.ctrl = acc.1.ctrl := by
  unfold farResetM
  split
  · rfl
  · split <;> rfl

theorem farResetM_hand (acc : State × Nat × Nat) :
    (farResetM acc).1.mem.inHand = acc.1.mem.inHand ∨ (farResetM acc).1.mem.inHand = none := by
  unfold farResetM
  split
  · exact .inl rfl
  · split
    · exact .inr rfl
    · exact .inl rfl
    · exact .inl rfl

theorem cmdFr_ran {s : State} (hs : CtrlLaw s) (src : Source) (o : Operands) : Ran s src (cmdFr o s) := by
  have hfold : Beside s (allSixteen.foldl farResetStep (s, 0, 0)).1 :=
    Beside.foldl farResetStep_beside allSixteen (s, 0, 0)
  have hctrl := (hfold.ctrlLaw hs).farResetM
  have hop := (congrArg Ctrl.op (farResetM_ctrl (allSixteen.foldl farResetStep (s, 0, 0)))).trans hfold.op
  have hhand := farResetM_hand (allSixteen.foldl farResetStep (s, 0, 0))
  have hport : Noticed s.console (farResetM (allSixteen.foldl farResetStep (s, 0, 0))).1.console := by
    rw [farResetM_console]
    exact hfold.port
  rw [hfold.mem] at hhand
  unfold cmdFr State.farReset
  split
  · exact .refused hs _
  · generalize farResetM (allSixteen.foldl farResetStep (s, 0, 0)) = acc at hctrl hop hhand hport
    obtain ⟨hret, hcursor, hinHand, hplace, halerts, hruns⟩ := hctrl
    exact ⟨⟨hret, hcursor, hinHand, hplace, halerts, hruns⟩, hport, fun hc => hop ▸ hc, .inl ⟨atOnce_fields _, hhand⟩⟩

/-- The rule answers at once and works beside the controller. -/
structure PlainRule (s : State) (r : State × Answer) : Prop where
  beside : Beside s r.1
  atOnce : AtOnce r.2

theorem PlainRule.refused (s : State) (c : Code) : PlainRule s (s, .refused c) := ⟨.refl s, trivial⟩

theorem PlainRule.fields {s t : State} (h : Beside s t) (fs : List Text) : PlainRule s (t, answerFields fs) :=
  ⟨h, atOnce_fields fs⟩

theorem setEntry_beside (s : State) (n : EntryNo) (e : WatchEntry) : Beside s (s.setEntry n e) := .of_eq rfl rfl rfl rfl rfl

theorem setRecord_beside (s : State) (n : RecordNo) (r : SubstRecord) : Beside s (s.setRecord n r) :=
  .of_eq rfl rfl rfl rfl rfl

theorem withLog_beside (s : State) (l : Log) : Beside s { s with log := l } := .of_eq rfl rfl rfl rfl rfl

theorem PlainRule.program (s : State) (n : EntryNo) (e : WatchEntry) : PlainRule s (s.programEntry n e) :=
  .fields (setEntry_beside s n e) _

theorem PlainRule.departure {s t : State} (n : SlotNo) (h : Beside s t) : PlainRule s (departureAnswer n t.clearance) :=
  .fields (h.trans (clearance_beside t)) _

theorem release_beside (s : State) (n : SlotNo) : Beside s (s.release n) :=
  .of_eq (by simp) (by simp) (by simp) (by simp) (by simp)

theorem answerHeld_beside (s : State) (n : SlotNo) (o : RecordOutcome) (r : Reason) (d : Option Data) :
    Beside s (s.answerHeld n o r d) := .of_eq (by simp) (by simp) (by simp) (by simp) (by simp)

theorem cmdWr_plain (o : Operands) (s : State) : PlainRule s (cmdWr o s) := by
  unfold cmdWr
  split
  · exact .refused s _
  · dsimp only
    split
    · exact .refused s _
    · exact .program s _ _
    · exact .program s _ _
    · exact .program s _ _

theorem cmdWa_plain (o : Operands) (s : State) : PlainRule s (cmdWa o s) := by
  unfold cmdWa
  split
  · exact .refused s _
  · dsimp only
    split
    · exact .program s _ _
    · exact .program s _ _
    · exact .refused s _
    · exact .refused s _

theorem cmdHr_plain (o : Operands) (s : State) : PlainRule s (cmdHr o s) := by
  unfold cmdHr
  split
  · exact .refused s _
  · split_ifs
    · exact .refused s _
    · exact .refused s _
    · exact .refused s _
    · exact .departure _ (release_beside s _)
  · split
    · exact .refused s _
    · exact .departure _ (release_beside s _)

theorem cmdHa_plain (o : Operands) (s : State) : PlainRule s (cmdHa o s) := by
  unfold cmdHa
  split
  · exact .refused s _
  · split
    · exact .refused s _
    · split
      · exact .refused s _
      · exact .departure _ (answerHeld_beside s _ _ _ _)

theorem cmdLn_plain (o : Operands) (s : State) : PlainRule s (cmdLn o s) := by
  unfold cmdLn
  split
  · exact .refused s _
  · split
    · exact .refused s _
    · split_ifs
      · exact .refused s _
      · exact .fields (withLog_beside s _) _

theorem cmdSp_plain (o : Operands) (s : State) : PlainRule s (cmdSp o s) := by
  unfold cmdSp
  split
  · exact .refused s _
  · rename_i p _
    have hb : Beside s { s with ctrl := { s.ctrl with params := p } } := ⟨rfl, rfl, rfl, rfl, rfl, rfl, .of_eq rfl⟩
    refine ⟨hb, ?_⟩
    dsimp only
    split_ifs
    · exact atOnce_fields _
    · trivial

/-- The verbs whose rules change the operating state, the memory port, slot M or the alert set. -/
def movesControl : Verb → Bool
  | .fr | .ak | .go | .byp | .fz | .th | .cl | .ma | .mr | .mw => true
  | .ts | .wq | .hl | .sq | .lr | .st | .sp | .ws | .wr | .wa | .wd | .wx | .hr | .ha | .hf | .ra | .ss | .sx | .ln | .lc
  | .lm => false

theorem verbRule_plain {v : Verb} (hv : movesControl v = false) (src : Source) (o : Operands) (s : State) :
    PlainRule s (verbRule v src o s) := by
  cases v with
  | ts => simp only [verbRule, cmdTs]; split <;> [exact .refused s _; exact ⟨.refl s, atOnce_listing _⟩]
  | hl => simp only [verbRule, cmdHl]; split <;> [exact .refused s _; exact ⟨.refl s, atOnce_listing _⟩]
  | wq => simp only [verbRule, cmdWq]; split <;> [exact .refused s _; exact .fields (.refl s) _]
  | sq => simp only [verbRule, cmdSq]; split <;> [exact .refused s _; exact .fields (.refl s) _]
  | st => simp only [verbRule, cmdSt]; split <;> [exact .refused s _; exact .fields (.refl s) _]
  | lr =>
    simp only [verbRule, cmdLr]
    split <;> [exact .refused s _; (split <;> [exact .refused s _; exact .fields (.refl s) _])]
  | sp => exact cmdSp_plain o s
  | ws =>
    simp only [verbRule, cmdWs]
    split <;> [exact .refused s _; (split <;> [exact .refused s _; exact .program s _ _])]
  | wr => exact cmdWr_plain o s
  | wa => exact cmdWa_plain o s
  | wd =>
    simp only [verbRule, cmdWd]
    split <;> [exact .refused s _; (split <;> [exact .program s _ _; exact .refused s _])]
  | wx => simp only [verbRule, cmdWx]; split <;> [exact .refused s _; exact .program s _ _]
  | hr => exact cmdHr_plain o s
  | ha => exact cmdHa_plain o s
  | hf =>
    simp only [verbRule, cmdHf]
    split <;> [exact .refused s _; (split <;> [exact .departure _ (answerHeld_beside s _ _ _ _); exact .refused s _])]
  | ra => simp only [verbRule, cmdRa]; split <;> [exact .refused s _; exact .fields (releaseAll_beside s) _]
  | ss => simp only [verbRule, cmdSs]; split <;> [exact .refused s _; exact .fields (setRecord_beside s _ _) _]
  | sx => simp only [verbRule, cmdSx]; split <;> [exact .refused s _; exact .fields (setRecord_beside s _ _) _]
  | ln => exact cmdLn_plain o s
  | lc => simp only [verbRule, cmdLc]; split <;> [exact .refused s _; exact .fields (withLog_beside s _) _]
  | lm =>
    simp only [verbRule, cmdLm]
    split <;> [exact .refused s _; exact .fields (.refl s) _; exact .fields (withLog_beside s _) _]
  | fr | ak | go | byp | fz | th | cl | ma | mr | mw => cases hv

theorem cmdAk_ran {s : State} (hs : CtrlLaw s) (src : Source) (o : Operands) : Ran s src (cmdAk o s) := by
  have hleft : ∀ (l : List EntryNo) (fs : List Text), l.Sublist s.alerts →
      Ran s src ({ s with alerts := l }, answerFields fs) := fun l fs hl =>
    ⟨⟨hs.ret, hs.cursor, hs.inHand, hs.place, hs.alerts.sublist hl, hs.runs⟩, .of_eq rfl, id,
      .inl ⟨atOnce_fields fs, .inl rfl⟩⟩
  unfold cmdAk
  split
  · exact .refused hs _
  · split_ifs
    · exact hleft _ _ List.filter_sublist
    · exact .refused hs _
  · exact hleft _ _ (List.nil_sublist _)

theorem cmdGo_ran {s : State} (hs : CtrlLaw s) (src : Source) (o : Operands) : Ran s src (cmdGo o s) := by
  unfold cmdGo
  split
  · exact .refused hs _
  · cases hop : s.ctrl.op with
    | bypass => exact .enter hs _ (by decide) (by decide)
    | watch => exact .fields hs (.refl s) _
    | frozen =>
      refine ⟨⟨iff_of_true rfl hop, hs.cursor, hs.inHand, hs.place, hs.alerts, hs.runs⟩, .of_eq rfl, id,
        .inl ⟨atOnce_fields _, .inl rfl⟩⟩
    | gated => exact .enter hs _ (by decide) (by decide)

theorem cmdBy_ran {s : State} (hs : CtrlLaw s) (src : Source) (o : Operands) : Ran s src (cmdBy o s) := by
  unfold cmdBy
  split
  · exact .refused hs _
  · cases hop : s.ctrl.op with
    | bypass => exact .fields hs (.refl s) _
    | watch => exact .enter hs _ (by decide) (by decide)
    | frozen =>
      refine ⟨⟨iff_of_true rfl hop, hs.cursor, hs.inHand, hs.place, hs.alerts, hs.runs⟩, .of_eq rfl, id,
        .inl ⟨atOnce_fields _, .inl rfl⟩⟩
    | gated => exact .enter hs _ (by decide) (by decide)

theorem freeze_ran {s : State} (hs : CtrlLaw s) (src : Source) (r : ReturnState) (fs : List Text) :
    Ran s src (s.freeze r, answerFields fs) :=
  Ran.raised (Ran.enter (r := some r) hs fs (iff_of_true rfl rfl) (fun hc => by cases hc)) .fz

theorem cmdFz_ran {s : State} (hs : CtrlLaw s) (src : Source) (o : Operands) : Ran s src (cmdFz o s) := by
  unfold cmdFz
  split
  · exact .refused hs _
  · split
    · exact freeze_ran hs src _ _
    · exact freeze_ran hs src _ _
    · exact .fields hs (.refl s) _
    · exact .refused hs _

theorem cmdTh_ran {s : State} (hs : CtrlLaw s) (src : Source) (o : Operands) : Ran s src (cmdTh o s) := by
  unfold cmdTh
  split
  · exact .refused hs _
  · split
    · rename_i r _ _
      exact Ran.raised (Ran.enter (o := opOfReturn r) (r := none) hs _ (by cases r <;> simp [opOfReturn])
        (by cases r <;> simp [opOfReturn])) .th
    · exact .refused hs _
    · exact .refused hs _
    · exact .refused hs _
    · exact .refused hs _

theorem clearRecords_beside (s : State) : Beside s s.clearRecords :=
  .of_eq (by simp) (by simp) (by simp) (by simp) (by simp)

theorem CtrlLaw.wipeTables {s : State} (h : CtrlLaw s) : CtrlLaw s.wipeTables :=
  ⟨h.ret, h.cursor, h.inHand, h.place, List.Pairwise.nil, h.runs⟩

theorem cmdCl_ran {s : State} (hs : CtrlLaw s) (src : Source) (o : Operands) : Ran s src (cmdCl o s) := by
  unfold cmdCl
  split
  · exact .refused hs _
  · have hb := (clearRecords_beside s).trans (releaseAll_beside s.clearRecords)
    dsimp only
    generalize s.clearRecords.releaseAll.1 = u at hb
    obtain ⟨hret, hcursor, hinHand, hplace, halerts, hruns⟩ := (hb.ctrlLaw hs).wipeTables
    have hhand : u.mem.inHand = s.mem.inHand := by rw [hb.mem]
    have hentered : Ran s src (u.wipeTables.enter .bypass, answerFields [hexPlain 0, hexPlain 0]) :=
      ⟨⟨by simp [State.enter], hcursor, hinHand, hplace, halerts, hruns⟩, hb.port, (by intro hc; cases hc),
        .inl ⟨atOnce_fields _, .inl hhand⟩⟩
    obtain ⟨ectrl, eport, egated, -⟩ := hentered
    unfold State.clearedState
    split
    · exact ⟨⟨hret, hcursor, hinHand, hplace, halerts, hruns⟩, hb.port, fun hc => hb.op ▸ hc,
        .inl ⟨atOnce_fields _, .inl hhand⟩⟩
    all_goals exact ⟨ectrl, eport, egated, .inl ⟨atOnce_fields _, .inl hhand⟩⟩

theorem cmdMa_ran {s : State} (hs : CtrlLaw s) (src : Source) (o : Operands) : Ran s src (cmdMa o s) := by
  unfold cmdMa
  split
  · exact .refused hs _
  · rename_i a z hread
    have haligned := (aligned_iff a z).2 ((readMa_eq_some_iff _ _ _ _).1 hread).place.aligned
    exact ⟨⟨hs.ret, haligned, hs.inHand, hs.place, hs.alerts, hs.runs⟩, .of_eq rfl, id, .inl ⟨atOnce_fields _, .inl rfl⟩⟩

theorem startAccess_ran {s : State} (hs : CtrlLaw s) (src : Source) {h : InHand} (c : AccClass)
    (hplace : aligned h.addr h.size = true) (hparty : h.party = partyOf src) : Ran s src (s.startAccess h c) := by
  unfold State.startAccess
  split
  · exact .refused hs _
  · refine ⟨⟨hs.ret, hs.cursor, ?_, ?_, hs.alerts, hs.runs⟩, .of_eq rfl, id, .inr ⟨rfl, ⟨h, rfl, hparty⟩, rfl⟩⟩
    · exact iff_of_true rfl rfl
    · rintro x hx
      obtain rfl := Option.some.inj hx
      exact hplace

theorem cmdMr_ran {s : State} (hs : CtrlLaw s) (src : Source) (o : Operands) : Ran s src (cmdMr src o s) := by
  unfold cmdMr
  split
  · exact .refused hs _
  · rename_i a z hread
    exact startAccess_ran hs src _ ((aligned_iff a z).2 ((readMa_eq_some_iff _ _ _ _).1 hread).place.aligned) rfl

theorem cmdMw_ran {s : State} (hs : CtrlLaw s) (src : Source) (o : Operands) : Ran s src (cmdMw src o s) := by
  unfold cmdMw
  split
  · exact .refused hs _
  · rename_i a z d hread
    exact startAccess_ran hs src _ ((aligned_iff a z).2 ((readMw_eq_some_iff _ _ _ _ _).1 hread).place.aligned) rfl

theorem verbRule_ran {s : State} (hs : CtrlLaw s) (v : Verb) (src : Source) (o : Operands) :
    Ran s src (verbRule v src o s) := by
  cases hv : movesControl v with
  | false =>
    have hplain := verbRule_plain hv src o s
    exact .of_beside hs hplain.beside hplain.atOnce
  | true =>
    cases v with
    | fr => exact cmdFr_ran hs src o
    | ak => exact cmdAk_ran hs src o
    | go => exact cmdGo_ran hs src o
    | byp => exact cmdBy_ran hs src o
    | fz => exact cmdFz_ran hs src o
    | th => exact cmdTh_ran hs src o
    | cl => exact cmdCl_ran hs src o
    | ma => exact cmdMa_ran hs src o
    | mr => exact cmdMr_ran hs src o
    | mw => exact cmdMw_ran hs src o
    | _ => cases hv

theorem runVerb_ran {s : State} (hs : CtrlLaw s) (v : Verb) (src : Source) (ops : List Token) :
    Ran s src (runVerb v src ops s) := by
  unfold runVerb
  split
  · exact .refused hs _
  · exact verbRule_ran hs v src _

theorem interpret_ran {s : State} (hs : CtrlLaw s) (src : Source) (m : Option Mark) (text : Text) :
    Ran s src (interpret src m text s) := by
  unfold interpret
  split
  · exact .refused hs _
  · split
    · exact .fields hs (.refl s) _
    · split
      · exact .refused hs _
      · exact runVerb_ran hs _ src _

/-! ### Lines of the console -/

theorem Ran.executes {s : State} {src : Source} {r : State × Answer} (h : Ran s src r) :
    r.1.console.executes = s.console.executes := h.port.executes

/-- A rule that answers at once, run while no line of the console executes and no preload line waits, keeps the laws. -/
theorem Ran.mid {s : State} {src : Source} {r : State × Answer} (h : Ran s src r) (hs : Mid s) (ha : r.2 ≠ .begun)
    (hexec : s.console.executes = false) (hfree : ∀ x, s.mem.inHand = some x → x.party ≠ .preload) : Mid r.1 := by
  obtain ⟨hctrl, hport, hgated, hhand⟩ := h
  have hin : ∀ x, r.1.mem.inHand = some x → s.mem.inHand = some x := by
    rcases hhand with ⟨-, heq | hnone⟩ | ⟨hbegun, -⟩
    · exact fun x hx => heq ▸ hx
    · exact fun x hx => by rw [hnone] at hx; cases hx
    · exact absurd hbegun ha
  refine ⟨hctrl, PortLaw.noticed (c := s.console) ?_ hport, hs.sent.noticed hport⟩
  obtain ⟨hslots, htwo, hroom, hresponse, hsending, -, hwaits, hgate, -, hbegun, hline⟩ := hs.port
  refine ⟨hslots, htwo, hroom, hresponse, hsending, ?_, fun x hx hp => hwaits x (hin x hx) hp, fun _ => hexec,
    fun x hx hp => absurd hp (hfree x (hin x hx)), hbegun, hline⟩
  intro hc
  rw [hexec] at hc
  cases hc

/-- The port with this reply to its line IN SERVICE (R167, R170). -/
def Console.replied (c : Console) (l : Line) (ls : List Text) (b : Bool) : Console :=
  { c with inService := some { line := l, stage := .responding, settings := b }, response := some ls }

/-- A reply leaves the port lawful with whatever access is in hand, if no console line waits for it. -/
theorem PortLaw.replied {op : OpState} {i j : Option InHand} {c : Console} (h : PortLaw op i c) (l : Line) (ls : List Text)
    (b : Bool) (hj : ∀ x, j = some x → x.party ≠ .console ∧ (x.party = .preload → op = .gated)) :
    PortLaw op j (c.replied l ls b) where
  slots _ := rfl
  two := h.two
  room := h.room
  response := iff_of_true rfl rfl
  sending _ := rfl
  executes hc := by cases hc
  waits x hx hp := absurd hp (hj x hx).1
  gated _ := rfl
  preload x hx hp := (hj x hx).2 hp
  begun := h.begun
  lineRoom := h.lineRoom

theorem SentLaw.replied (c : Console) (l : Line) {ls : List Text} (b : Bool) (hls : ls ≠ []) :
    SentLaw (c.replied l ls b) := fun hc => absurd (Option.some.inj hc) hls

theorem PortLaw.notConsole {op : OpState} {i : Option InHand} {c : Console} (h : PortLaw op i c)
    (hexec : c.executes = false) : ∀ x, i = some x → x.party ≠ .console ∧ (x.party = .preload → op = .gated) :=
  fun x hx => ⟨fun hp => by simp [h.waits x hx hp] at hexec, fun hp => h.preload x hx hp⟩

theorem Mid.reply {s : State} (h : Mid s) (l : Line) {ls : List Text} (b : Bool) (hls : ls ≠ [])
    (hexec : s.console.executes = false) : Mid (s.reply l ls b) := by
  obtain ⟨⟨hret, hcursor, hinHand, hplace, halerts, hruns⟩, hport, -⟩ := h
  exact ⟨⟨hret, hcursor, hinHand, hplace, halerts, hruns⟩, hport.replied l ls b (hport.notConsole hexec),
    SentLaw.replied s.console l b hls⟩

theorem executes_of_noService {c : Console} (h : c.inService = none) : c.executes = false := by
  simp [Console.executes, h]

/-- A verb's line that the console runs while no line is IN SERVICE (R167). -/
theorem Mid.answerLine {s : State} {r : State × Answer} (h : Mid s) (hr : Ran s .console r)
    (hfree : s.console.inService = none) (hop : s.ctrl.op ≠ .gated) (l : Line) : Mid (answerLine l r) := by
  have hexec := executes_of_noService hfree
  have hmid : r.2 ≠ .begun → Mid r.1 := fun ha => hr.mid h ha hexec (CtrlLaw.not_preload h.port hop)
  have hexec' : r.1.console.executes = false := hr.executes.trans hexec
  unfold Machine.answerLine
  cases ha : r.2 with
  | lines ls =>
    rcases hr.hand with ⟨hatonce, -⟩ | ⟨hbegun, -⟩
    · rw [ha] at hatonce
      exact (hmid (by simp [ha])).reply l false hatonce hexec'
    · rw [ha] at hbegun
      cases hbegun
  | settings x => exact (hmid (by simp [ha])).reply l true (List.cons_ne_nil _ _) hexec'
  | refused c => exact (hmid (by simp [ha])).reply l false (List.cons_ne_nil _ _) hexec'
  | begun =>
    rcases hr.hand with ⟨hatonce, -⟩ | ⟨-, ⟨x, hx, hparty⟩, hsame⟩
    · rw [ha] at hatonce
      cases hatonce
    · have hnone : r.1.console.response = none := by
        have hresponse := h.port.response
        rw [hfree] at hresponse
        rw [hr.port.response]
        simpa using hresponse
      obtain ⟨hslots, htwo, hroom, -, hsending, -, -, -, -, hbegun, hline⟩ := h.port.noticed hr.port
      obtain ⟨hret, hcursor, hinHand, hplace, halerts, hruns⟩ := hr.ctrl
      refine ⟨⟨hret, hcursor, hinHand, hplace, halerts, hruns⟩, ⟨fun _ => rfl, htwo, hroom, ?_, hsending, fun _ => ?_,
        fun _ _ _ => rfl, fun hc => absurd (hsame ▸ hc) hop, ?_, hbegun, hline⟩, ?_⟩
      · rw [hnone]
        exact iff_of_false (fun hc => by cases hc) (fun hc => by cases hc)
      · exact Option.isSome_iff_exists.2 ⟨x, hx⟩
      · intro y hy hp
        obtain rfl := Option.some.inj (hx.symm.trans hy)
        rw [hparty] at hp
        cases hp
      · intro hc
        have hc : r.1.console.response = some [] := hc
        rw [hnone] at hc
        cases hc

theorem Mid.serveUnless {s t : State} (h : Mid s) (hfree : s.console.inService = none) (l : Line)
    (ht : s.ctrl.op ≠ .gated → Mid t) : Mid (s.serveUnless l t) := by
  have hexec := executes_of_noService hfree
  unfold State.serveUnless
  split_ifs with hop
  · exact h.reply l false (List.cons_ne_nil _ _) hexec
  · exact h.reply l false (List.cons_ne_nil _ _) hexec
  · exact ht hop

theorem Mid.serveLine {s : State} (h : Mid s) (hfree : s.console.inService = none) (l : Line) : Mid (s.serveLine l) :=
  h.serveUnless hfree l (fun hop => h.answerLine (interpret_ran h.ctrl .console l.mark l.text) hfree hop l)

/-! ### The end of a service -/

/-- The port with its service ended and no line that waits (R167). -/
def Console.served (c : Console) : Console := { c with inService := none, response := none, waiting := none }

theorem PortLaw.served {op : OpState} {i j : Option InHand} {c : Console} (h : PortLaw op i c)
    (hquiet : sendingResponse c = false)
    (hj : ∀ x, j = some x → x.party ≠ .console ∧ (x.party = .preload → op = .gated)) : PortLaw op j c.served where
  slots hc := by cases hc
  two hc := by cases hc.2
  room := h.room
  response := iff_of_false (fun hc => by cases hc) (fun hc => by cases hc)
  sending hc := by
    have hsame : sendingResponse c.served = sendingResponse c := rfl
    rw [hsame, hquiet] at hc
    cases hc
  executes hc := by cases hc
  waits x hx hp := absurd hp (hj x hx).1
  gated _ := rfl
  preload x hx hp := (hj x hx).2 hp
  begun := h.begun
  lineRoom := h.lineRoom

/-- The port with these settings in use, and those a line being sent was begun under kept for it (R144). -/
theorem PortLaw.settings {op : OpState} {i : Option InHand} {c : Console} (h : PortLaw op i c) (b : BitVec 2) (p : Parity)
    (u : LineSettings) : PortLaw op i { c with
      baudInUse := b, parityInUse := p, begunUnder := if c.tx = .idle then c.begunUnder else some u } where
  slots := h.slots
  two := h.two
  room := h.room
  response := h.response
  sending := h.sending
  executes := h.executes
  waits := h.waits
  gated := h.gated
  preload := h.preload
  begun hc := by
    dsimp only at hc ⊢
    split_ifs at hc with hidle
    · exact h.begun hc
    · exact hidle
  lineRoom := h.lineRoom

theorem Mid.takeSettings {s : State} (h : Mid s) : Mid s.takeSettings := by
  obtain ⟨⟨hret, hcursor, hinHand, hplace, halerts, hruns⟩, hport, hsent⟩ := h
  exact ⟨⟨hret, hcursor, hinHand, hplace, halerts, hruns⟩, hport.settings _ _ _, hsent⟩

/-- The end of a service, with a line that waits or without one: of the port nothing is asked but that no response line is
being sent, and of the access in hand that no console line waits for it. -/
theorem mid_endService {s : State} {i : Option InHand} (hc : CtrlLaw s) (hp : PortLaw s.ctrl.op i s.console)
    (hquiet : sendingResponse s.console = false)
    (hi : ∀ x, s.mem.inHand = some x → x.party ≠ .console ∧ (x.party = .preload → s.ctrl.op = .gated)) :
    Mid s.endService := by
  have hserved : ∀ t : State, CtrlLaw t → PortLaw t.ctrl.op i t.console → t.ctrl.op = s.ctrl.op → t.mem = s.mem →
      sendingResponse t.console = false → Mid { t with console := t.console.served } := by
    intro t htc htp hop hmem htq
    obtain ⟨hret, hcursor, hinHand, hplace, halerts, hruns⟩ := htc
    refine ⟨⟨hret, hcursor, hinHand, hplace, halerts, hruns⟩, htp.served htq ?_, fun hx => by cases hx⟩
    rw [hmem, hop]
    exact hi
  have hset : CtrlLaw s.takeSettings := ⟨hc.ret, hc.cursor, hc.inHand, hc.place, hc.alerts, hc.runs⟩
  have hmid : Mid { (if s.console.inService.any Service.settings then s.takeSettings else s) with
      console := (if s.console.inService.any Service.settings then s.takeSettings else s).console.served } := by
    split
    · exact hserved _ hset (hp.settings _ _ _) rfl rfl hquiet
    · exact hserved s hc hp rfl rfl hquiet
  unfold State.endService
  dsimp only
  generalize (if s.console.inService.any Service.settings then s.takeSettings else s) = t at hmid
  cases hw : t.console.waiting with
  | none => exact hmid
  | some l => exact hmid.serveLine rfl l

/-! ### Line assembly -/

/-- A change of the port that keeps its laws keeps those of the state. -/
theorem Mid.port_change {s : State} (h : Mid s) {c : Console} (hp : PortLaw s.ctrl.op s.mem.inHand c) (hs : SentLaw c) :
    Mid { s with console := c } := by
  obtain ⟨⟨hret, hcursor, hinHand, hplace, halerts, hruns⟩, -, -⟩ := h
  exact ⟨⟨hret, hcursor, hinHand, hplace, halerts, hruns⟩, hp, hs⟩

/-- The laws are kept when the line being assembled, the line that waits and the overrun flag take lawful values. -/
theorem Mid.lines {s : State} (h : Mid s) (a : Option Assembly) (w : Option Line) (v : Bool)
    (hslots : w.isSome = true → s.console.inService.isSome = true) (htwo : a = none ∨ w = none)
    (hroom : ∀ x, a = some x → x.text.length ≤ Config.lineRoom) :
    Mid { s with console := { s.console with assembling := a, waiting := w, overrun := v } } := by
  obtain ⟨-, -, hnotices, hresponse, hsending, hexecutes, hwaits, hgated, hpreload, hbegun, -⟩ := h.port
  refine h.port_change ⟨hslots, ?_, hnotices, hresponse, hsending, hexecutes, hwaits, hgated, hpreload, hbegun, hroom⟩ h.sent
  rintro ⟨ha, hw⟩
  rcases htwo with rfl | rfl
  · cases ha
  · cases hw

theorem Mid.completeLine {s : State} (h : Mid s) (text : Text) (m : Option Mark) : Mid (s.completeLine text m) := by
  unfold State.completeLine
  dsimp only
  split_ifs with hfree
  · have hnone : s.console.inService = none := by simpa using hfree
    exact (h.lines none s.console.waiting false h.port.slots (.inl rfl) (fun x hx => by cases hx)).serveLine hnone _
  · have hsome : s.console.inService.isSome = true := by simpa [Option.isSome_iff_ne_none] using hfree
    exact h.lines none (some _) false (fun _ => hsome) (.inl rfl) (fun x hx => by cases hx)

theorem Assembly.take_length {a : Assembly} (h : a.text.length ≤ Config.lineRoom) (b : Byte) :
    (a.take b).text.length ≤ Config.lineRoom := by
  unfold Assembly.take
  split_ifs with hp hroom
  · rw [List.length_append, List.length_singleton]
    exact hroom.1
  · exact h
  · simp only [List.length_dropLast]
    omega
  · exact h

theorem Mid.assemble {s : State} (h : Mid s) {a : Assembly} (hw : s.console.waiting = none)
    (ha : a.text.length ≤ Config.lineRoom) (ch : Option Byte) : Mid (s.assemble a ch) := by
  have hkeep : ∀ x : Option Assembly, (∀ y, x = some y → y.text.length ≤ Config.lineRoom) →
      Mid { s with console := { s.console with assembling := x } } := fun x hx =>
    h.lines x s.console.waiting s.console.overrun h.port.slots (.inr hw) hx
  unfold State.assemble
  split
  · refine hkeep _ (fun y hy => ?_)
    obtain rfl := Option.some.inj hy
    exact ha
  · split_ifs
    · exact h.completeLine _ _
    · exact hkeep none (fun y hy => by cases hy)
    · refine hkeep _ (fun y hy => ?_)
      obtain rfl := Option.some.inj hy
      exact Assembly.take_length ha _

theorem Mid.takeCharacter {s : State} (h : Mid s) (ch : Option Byte) : Mid (s.takeCharacter ch) := by
  unfold State.takeCharacter
  split
  · exact h
  · split
    · rename_i a ha
      have hw : s.console.waiting = none := by
        have htwo := h.port.two
        rw [ha] at htwo
        simpa using htwo
      exact h.assemble hw (h.port.lineRoom a ha) ch
    · rename_i ha
      split_ifs with hfree
      · exact h
      · have hw : s.console.waiting = none := by
          rcases Bool.or_eq_true_iff.1 hfree with hwaiting | hservice
          · simpa using hwaiting
          · have hslots := h.port.slots
            rw [Option.isNone_iff_eq_none.1 hservice] at hslots
            simpa using hslots
        exact h.assemble hw (Nat.zero_le _) ch
      · exact h.lines s.console.assembling s.console.waiting true h.port.slots (.inl ha) h.port.lineRoom

theorem Mid.consoleCommand {s : State} (h : Mid s) (v : Verb) (ops : List Token) : Mid (s.consoleCommand v ops) := by
  have htwo : s.console.assembling = none ∨ s.console.waiting = none := by
    have := h.port.two
    cases ha : s.console.assembling with
    | none => exact .inl rfl
    | some a =>
      rw [ha] at this
      exact .inr (by simpa using this)
  unfold State.consoleCommand
  dsimp only
  split_ifs with hfree hboth
  · have hnone : s.console.inService = none := by simpa using hfree
    have hclean : Mid { s with console := { s.console with overrun := false } } :=
      h.lines s.console.assembling s.console.waiting false h.port.slots htwo h.port.lineRoom
    exact hclean.serveUnless hnone _ (fun hop => hclean.answerLine (runVerb_ran hclean.ctrl v .console ops) hnone hop _)
  · obtain ⟨-, ha⟩ := Bool.and_eq_true_iff.1 hboth
    have hsome : s.console.inService.isSome = true := by simpa [Option.isSome_iff_ne_none] using hfree
    exact h.lines s.console.assembling (some _) false (fun _ => hsome) (.inl (Option.isNone_iff_eq_none.1 ha)) h.port.lineRoom
  · exact h.lines s.console.assembling s.console.waiting true h.port.slots htwo h.port.lineRoom

/-! ### The transmitter and the break -/

/-- The port at the end of a line sent (R174) is lawful but for what follows that end. -/
theorem PortLaw.lineEnded {s : State} (h : PortLaw s.ctrl.op s.mem.inHand s.console) :
    PortLaw s.ctrl.op s.mem.inHand (lineEnded s) :=
  ⟨h.slots, h.two, h.room, h.response, (by intro hc; cases hc), h.executes, h.waits, h.gated, h.preload,
    (by intro hc; cases hc), h.lineRoom⟩

theorem PortLaw.withTx {op : OpState} {i : Option InHand} {c : Console} (h : PortLaw op i c) {t : Tx} (hidle : t ≠ .idle)
    (hquiet : sendingResponse { c with tx := t } = false) : PortLaw op i { c with tx := t } :=
  ⟨h.slots, h.two, h.room, h.response, (by rw [hquiet]; intro hc; cases hc), h.executes, h.waits, h.gated, h.preload,
    fun _ => hidle, h.lineRoom⟩

theorem Mid.finishLine {s : State} (h : Mid s) : Mid s.finishLine := by
  obtain ⟨hret, hcursor, hinHand, hplace, halerts, hruns⟩ := h.ctrl
  have hended : CtrlLaw { s with console := lineEnded s } := ⟨hret, hcursor, hinHand, hplace, halerts, hruns⟩
  have hport := h.port.lineEnded
  unfold State.finishLine
  rw [State.endLine_eq]
  cases htx : s.console.tx with
  | idle => exact h
  | notice n =>
    have hsent : s.console.response ≠ some [] := fun hc => by simpa [sendingResponse, htx] using h.sent hc
    exact h.port_change hport (fun hc => absurd hc hsent)
  | lost k n =>
    have hsent : s.console.response ≠ some [] := fun hc => by simpa [sendingResponse, htx] using h.sent hc
    exact h.port_change (hport.withTx (t := .notice n) (fun hc => by cases hc) rfl) (fun hc => absurd hc hsent)
  | response x =>
    have hresponding : s.console.inService.any (fun v => v.stage == .responding) = true :=
      h.port.response.1 (h.port.sending (by rw [sendingResponse, htx]))
    have hexec : s.console.executes = false := by
      unfold Console.executes
      cases hv : s.console.inService with
      | none => rfl
      | some v =>
        rw [hv, Option.any_some, beq_iff_eq] at hresponding
        rw [Option.any_some, hresponding]
        rfl
    have hend := mid_endService hended hport rfl (h.port.notConsole hexec)
    dsimp only
    split
    · rename_i y ys hr
      have hr : s.console.response = some (y :: ys) := hr
      exact h.port_change hport (fun hc => by
        have hc : s.console.response = some [] := hc
        rw [hr] at hc
        cases hc)
    · exact hend
    · exact hend

/-- What `State.abandon` makes of the access in hand (R178). -/
def abandoned (p : Party) (i : Option InHand) : Option InHand :=
  i.map (fun h => if h.party = p then { h with party := .nobody } else h)

theorem abandoned_eq_some {p : Party} {i : Option InHand} {x : InHand} (hp : p ≠ .nobody) (h : abandoned p i = some x) :
    ∃ y, i = some y ∧ x.addr = y.addr ∧ x.size = y.size ∧ x.party ≠ p ∧ (x.party ≠ .nobody → x.party = y.party) := by
  unfold abandoned at h
  obtain ⟨y, rfl, rfl⟩ := Option.map_eq_some_iff.1 h
  refine ⟨y, rfl, ?_⟩
  split_ifs with hy
  · exact ⟨rfl, rfl, hp.symm, fun hc => absurd rfl hc⟩
  · exact ⟨rfl, rfl, hy, fun _ => rfl⟩

theorem abandoned_isSome (p : Party) (i : Option InHand) : (abandoned p i).isSome = i.isSome := by
  cases i <;> rfl

theorem CtrlLaw.abandon {s : State} (h : CtrlLaw s) {p : Party} (hp : p ≠ .nobody) : CtrlLaw (s.abandon p) where
  ret := h.ret
  cursor := h.cursor
  inHand := by
    have hsome : (s.abandon p).mem.inHand.isSome = s.mem.inHand.isSome := abandoned_isSome p _
    rw [hsome]
    exact h.inHand
  place x hx := by
    obtain ⟨y, hy, haddr, hsize, -⟩ := abandoned_eq_some hp hx
    rw [haddr, hsize]
    exact h.place y hy
  alerts := h.alerts
  runs := h.runs

theorem PortLaw.abandon {op o : OpState} {i : Option InHand} {c : Console} (h : PortLaw op i c) {p : Party}
    (hp : p ≠ .nobody) (ho : o = op ∨ p = .preload ∧ o ≠ .gated) : PortLaw o (abandoned p i) c where
  slots := h.slots
  two := h.two
  room := h.room
  response := h.response
  sending := h.sending
  executes hc := by
    rw [abandoned_isSome]
    exact h.executes hc
  waits x hx hparty := by
    obtain ⟨y, hy, -, -, -, hsame⟩ := abandoned_eq_some hp hx
    exact h.waits y hy (by rw [← hsame (by simp [hparty]), hparty])
  gated hc := by
    rcases ho with rfl | ⟨-, ho⟩
    · exact h.gated hc
    · exact absurd hc ho
  preload x hx hparty := by
    obtain ⟨y, hy, -, -, hne, hsame⟩ := abandoned_eq_some hp hx
    rcases ho with rfl | ⟨rfl, -⟩
    · exact h.preload y hy (by rw [← hsame (by simp [hparty]), hparty])
    · exact absurd hparty hne
  begun := h.begun
  lineRoom := h.lineRoom

theorem executes_of_responding {c : Console} {v : Service} (hv : c.inService = some v) (hs : v.stage = .responding) :
    c.executes = false := by
  rw [Console.executes, hv, Option.any_some, hs]
  rfl

theorem Mid.suppress {s : State} (h : Mid s) : Mid s.suppress := by
  unfold State.suppress
  split
  · exact h
  · rename_i v hv
    split
    · exact ⟨h.ctrl.abandon (by decide), h.port.abandon (by decide) (.inl rfl), h.sent⟩
    · rename_i hstage
      have hexec := executes_of_responding hv hstage
      split_ifs with hsend
      · have hsome : s.console.response.isSome = true := h.port.sending hsend
        obtain ⟨hslots, htwo, hroom, hresponse, -, hexecutes, hwaits, hgated, hpreload, hbegun, hline⟩ := h.port
        exact h.port_change ⟨hslots, htwo, hroom, iff_of_true rfl (hresponse.1 hsome), fun _ => rfl, hexecutes, hwaits, hgated,
          hpreload, hbegun, hline⟩ (fun _ => hsend)
      · exact mid_endService h.ctrl h.port (by simpa using hsend) (h.port.notConsole hexec)

/-! ### The preload port -/

theorem Mid.preloadFail {s : State} (h : Mid s) (c : Code) : Mid (s.preloadFail c) := by
  obtain ⟨hret, hcursor, hinHand, hplace, halerts, hruns⟩ := h.ctrl.abandon (p := .preload) (by decide)
  refine Mid.raise (s := { (s.entriesOff.recordsInvalid.enter .bypass).abandon .preload with
    preload := s.preload.lineStart }) ⟨⟨?_, hcursor, hinHand, hplace, halerts, hruns⟩, ?_, h.sent⟩ _
  · exact iff_of_false (fun hc => by cases hc) (fun hc => by cases hc)
  · exact h.port.abandon (by decide) (.inr ⟨rfl, fun hc => by cases hc⟩)

theorem Mid.breakConsole {s : State} (h : Mid s) : Mid s.breakConsole := by
  have hcut := h.lines none none false (fun hc => by cases hc) (.inl rfl) (fun x hx => by cases hx)
  exact hcut.suppress.raise .bk

theorem Mid.breakPreload {s : State} (h : Mid s) : Mid s.breakPreload := by
  unfold State.breakPreload
  split_ifs
  · exact h.preloadFail _
  · exact h

theorem withPreload_beside (s : State) (p : Preload) : Beside s { s with preload := p } := .of_eq rfl rfl rfl rfl rfl

theorem Mid.preloadCounted {s : State} (h : Mid s) : Mid s.preloadCounted := by
  have hcount : Mid s.countLine := (withPreload_beside s _).mid h
  unfold State.preloadCounted
  dsimp only
  split_ifs
  · exact hcount
  · exact hcount.raise _

theorem Mid.preloadSettings {s : State} (h : Mid s) : Mid s.preloadSettings := by
  unfold State.preloadSettings
  split_ifs
  · exact h.takeSettings
  · obtain ⟨hslots, htwo, hroom, hresponse, hsending, hexecutes, hwaits, hgated, hpreload, hbegun, hline⟩ := h.port
    exact h.port_change ⟨hslots, htwo, hroom, hresponse, hsending, hexecutes, hwaits, hgated, hpreload, hbegun, hline⟩ h.sent

/-- No access is in hand for a preload line. -/
theorem not_preload_of_preloadWaits {s : State} (h : s.preloadWaits = false) :
    ∀ x, s.mem.inHand = some x → x.party ≠ .preload := fun x hx hp => by
  simp [State.preloadWaits, hx, hp] at h

/-- The execution of a preload line, begun in GATED while no preload line waits for an access (R148). -/
theorem Mid.preloadDone {s : State} {r : State × Answer} (h : Mid s) (hr : Ran s .preload r) (hop : s.ctrl.op = .gated)
    (hfree : ∀ x, s.mem.inHand = some x → x.party ≠ .preload) : Mid (preloadDone r) := by
  have hexec := h.port.gated hop
  have hmid : r.2 ≠ .begun → Mid r.1 := fun ha => hr.mid h ha hexec hfree
  unfold Machine.preloadDone
  cases ha : r.2 with
  | lines ls => exact (hmid (by simp [ha])).preloadCounted
  | settings x => exact (hmid (by simp [ha])).preloadSettings.preloadCounted
  | refused c => exact (hmid (by simp [ha])).preloadFail c
  | begun =>
    rcases hr.hand with ⟨hatonce, -⟩ | ⟨-, ⟨x, hx, hparty⟩, hsame⟩
    · rw [ha] at hatonce
      cases hatonce
    · have hin : ∀ y, r.1.mem.inHand = some y → y.party = .preload := fun y hy => by
        obtain rfl := Option.some.inj (hx.symm.trans hy)
        exact hparty
      have hport := h.port.noticed hr.port
      have hexec' : r.1.console.executes = false := hr.executes.trans hexec
      refine ⟨hr.ctrl, ⟨hport.slots, hport.two, hport.room, hport.response, hport.sending, ?_, ?_, fun _ => hexec', ?_,
        hport.begun, hport.lineRoom⟩, h.sent.noticed hr.port⟩
      · exact fun _ => Option.isSome_iff_exists.2 ⟨x, hx⟩
      · intro y hy hp
        rw [hin y hy] at hp
        cases hp
      · exact fun _ _ _ => hsame.trans hop

theorem Mid.checkLimit {s : State} (h : Mid s) : Mid s.checkLimit := by
  unfold State.checkLimit
  split_ifs
  · exact h.preloadFail _
  · exact h

theorem gated_of_preloading {s : State} (h : s.preloading = true) : s.ctrl.op = .gated := by
  simpa [State.preloading] using h

theorem Mid.takeStreamByte {s : State} (h : Mid s) (hop : s.ctrl.op = .gated) (hwaits : s.preloadWaits = false) (b : Byte) :
    Mid (s.takeStreamByte b) := by
  have hfree := not_preload_of_preloadWaits hwaits
  unfold State.takeStreamByte
  dsimp only
  split_ifs
  · obtain ⟨hret, hcursor, hinHand, hplace, halerts, hruns⟩ := h.ctrl
    refine Mid.raise (s := s.enter .bypass) ⟨⟨?_, hcursor, hinHand, hplace, halerts, hruns⟩, ?_, h.sent⟩ _
    · exact iff_of_false (fun hc => by cases hc) (fun hc => by cases hc)
    · exact h.port.enter hfree (fun hc => by cases hc)
  · exact h
  · have hstart := (withPreload_beside s s.preload.lineStart).mid h
    exact hstart.preloadDone (interpret_ran hstart.ctrl .preload _ _) hop hfree
  · exact (withPreload_beside s _).mid h
  · exact (withPreload_beside s _).mid h

theorem Mid.readByte {s : State} (h : Mid s) (b : Byte) : Mid (s.readByte b) := by
  unfold State.readByte
  split_ifs with hc
  · simp only [Bool.and_eq_true, Bool.not_eq_true'] at hc
    obtain ⟨⟨hgated, hwaits⟩, -⟩ := hc
    have hnext := (withPreload_beside s { s.preload with offset := s.preload.offset + 1 }).mid h
    exact (hnext.takeStreamByte (gated_of_preloading hgated) hwaits b).checkLimit
  · exact h

theorem Mid.preloadCommand {s : State} (h : Mid s) (v : Verb) (ops : List Token) : Mid (s.preloadCommand v ops) := by
  unfold State.preloadCommand
  split_ifs with hc
  · simp only [Bool.and_eq_true, Bool.not_eq_true'] at hc
    obtain ⟨hgated, hwaits⟩ := hc
    exact h.preloadDone (runVerb_ran h.ctrl v .preload ops) (gated_of_preloading hgated)
      (not_preload_of_preloadWaits hwaits)
  · exact h

theorem Mid.command {s : State} (h : Mid s) (v : Verb) (src : Source) (ops : List Token) : Mid (s.command v src ops) := by
  cases src with
  | console => exact h.consoleCommand v ops
  | preload => exact h.preloadCommand v ops

/-! ### The end of an access, far responses and timeouts -/

theorem aligned_next {a : Word} {z : Size} (h : aligned a z = true) : aligned (a + BitVec.ofNat 32 (sizeBytes z)) z = true := by
  rw [aligned_iff] at h ⊢
  rw [BitVec.toNat_add, BitVec.toNat_ofNat]
  cases z <;> simp only [sizeBytes] at h ⊢ <;> omega

theorem CtrlLaw.ended {s : State} (h : CtrlLaw s) {m : Option MAccess}
    (hm : m.any (fun x => x.state != .orphan) = false) {x : InHand} (hx : s.mem.inHand = some x) (e : AccessEnd) :
    CtrlLaw { s.setSlotM m with mem := ({ s.mem with inHand := none } : Mem).advance x e } where
  ret := h.ret
  cursor := by
    cases e with
    | ok d => exact aligned_next (h.place x hx)
    | error => exact h.cursor
    | timeout => exact h.cursor
  inHand := by
    have hhand : (({ s.mem with inHand := none } : Mem).advance x e).inHand = none := by cases e <;> rfl
    rw [hhand]
    exact iff_of_false (fun hc => by cases hc) (fun hc => by
      have hc : m.any (fun x => x.state != .orphan) = true := hc
      rw [hm] at hc
      cases hc)
  place y hy := by
    have hhand : (({ s.mem with inHand := none } : Mem).advance x e).inHand = none := by cases e <;> rfl
    rw [hhand] at hy
    cases hy
  alerts := h.alerts
  runs := h.runs

theorem CtrlLaw.discarded {s : State} (h : CtrlLaw s) {m : Option MAccess}
    (hm : m.any (fun x => x.state != .orphan) = false) : CtrlLaw { s.setSlotM m with mem := { s.mem with inHand := none } } where
  ret := h.ret
  cursor := h.cursor
  inHand := iff_of_false (fun hc => by cases hc) (fun hc => by
    have hc : m.any (fun x => x.state != .orphan) = true := hc
    rw [hm] at hc
    cases hc)
  place y hy := by cases hy
  alerts := h.alerts
  runs := h.runs

theorem atOnce_endAnswer (h : InHand) (e : AccessEnd) : AtOnce (endAnswer h e) := by
  unfold endAnswer
  cases e with
  | ok d => cases h.command <;> exact atOnce_fields _
  | error => trivial
  | timeout => trivial

theorem answerLine_ended {s : State} {i : Option InHand} (hc : CtrlLaw s) (hp : PortLaw s.ctrl.op i s.console)
    (hnone : s.mem.inHand = none) (l : Line) {a : Answer} (ha : AtOnce a) : Mid (answerLine l (s, a)) := by
  have hfree : ∀ x, s.mem.inHand = some x → x.party ≠ .console ∧ (x.party = .preload → s.ctrl.op = .gated) :=
    fun x hx => by rw [hnone] at hx; cases hx
  have hreply : ∀ (ls : List Text) (b : Bool), ls ≠ [] → Mid (s.reply l ls b) := fun ls b hls =>
    ⟨⟨hc.ret, hc.cursor, hc.inHand, hc.place, hc.alerts, hc.runs⟩, hp.replied l ls b hfree, SentLaw.replied s.console l b hls⟩
  unfold Machine.answerLine
  cases a with
  | lines ls => exact hreply ls false ha
  | settings x => exact hreply _ true (List.cons_ne_nil _ _)
  | refused c => exact hreply _ false (List.cons_ne_nil _ _)
  | begun => cases ha

/-- Slot M is left to no access, and the access in hand ends (R183). -/
theorem Mid.endAccess {s : State} (h : Mid s) {m : Option MAccess} (hm : m.any (fun x => x.state != .orphan) = false)
    (e : AccessEnd) : Mid ((s.setSlotM m).endAccess e) := by
  unfold State.endAccess
  rw [State.setSlotM_mem]
  cases hx : s.mem.inHand with
  | none =>
    have hgone : ({ s.setSlotM m with mem := { s.mem with inHand := none } } : State) = s.setSlotM m := by
      rw [← hx]
      rfl
    have hctrl := h.ctrl.discarded hm
    rw [hgone] at hctrl
    exact ⟨hctrl, h.port, h.sent⟩
  | some x =>
    have hctrl := h.ctrl.ended hm hx e
    have hnone : (({ s.mem with inHand := none } : Mem).advance x e).inHand = none := by cases e <;> rfl
    dsimp only
    cases hparty : x.party with
    | console =>
      obtain ⟨v, hv⟩ : ∃ v, s.console.inService = some v := by
        have hexec := h.port.waits x hx hparty
        cases hv : s.console.inService with
        | none => simp [Console.executes, hv] at hexec
        | some v => exact ⟨v, rfl⟩
      unfold State.answerInService
      rw [State.setSlotM_console, hv]
      exact answerLine_ended hctrl h.port hnone v.line (atOnce_endAnswer x e)
    | preload =>
      have hop := h.port.preload x hx hparty
      have hexec := h.port.gated hop
      have hfree : ∀ y, (({ s.mem with inHand := none } : Mem).advance x e).inHand = some y → y.party ≠ .preload :=
        fun y hy => by rw [hnone] at hy; cases hy
      have hmid : Mid { s.setSlotM m with mem := ({ s.mem with inHand := none } : Mem).advance x e } := by
        refine ⟨hctrl, ⟨h.port.slots, h.port.two, h.port.room, h.port.response, h.port.sending, ?_, ?_, h.port.gated, ?_,
          h.port.begun, h.port.lineRoom⟩, h.sent⟩
        · intro hc
          have hc : s.console.executes = true := hc
          rw [hexec] at hc
          cases hc
        · intro y hy
          have hy : (({ s.mem with inHand := none } : Mem).advance x e).inHand = some y := hy
          rw [hnone] at hy
          cases hy
        · exact fun y hy hp => absurd hp (hfree y hy)
      exact (hmid.preloadDone (.of_beside hctrl (.refl _) (atOnce_endAnswer x e)) hop hfree).checkLimit
    | nobody =>
      have hdiscard := h.ctrl.discarded hm
      have hfree : ∀ y : InHand, (none : Option InHand) = some y →
          y.party ≠ .console ∧ (y.party = .preload → s.ctrl.op = .gated) := fun y hy => by cases hy
      dsimp only
      split_ifs with hexec
      · have hquiet : sendingResponse s.console = false := by
          by_contra hc
          have hresponding := h.port.response.1 (h.port.sending (by simpa using hc))
          have hexec : s.console.executes = true := hexec
          unfold Console.executes at hexec
          cases hv : s.console.inService with
          | none => simp [hv] at hexec
          | some v =>
            rw [hv, Option.any_some, beq_iff_eq] at hexec hresponding
            rw [hexec] at hresponding
            cases hresponding
        exact mid_endService hdiscard h.port hquiet hfree
      · have hexec : ¬ s.console.executes = true := hexec
        refine ⟨hdiscard, ⟨h.port.slots, h.port.two, h.port.room, h.port.response, h.port.sending, fun hc => absurd hc hexec,
          fun y hy => (by cases hy), h.port.gated, fun y hy => (by cases hy), h.port.begun, h.port.lineRoom⟩, h.sent⟩

theorem Mid.farToSlotM {s : State} (h : Mid s) (r : FarResponse) : Mid (s.farToSlotM r) := by
  unfold State.farToSlotM
  cases hm : s.transit.slotM with
  | none => exact h.raise _
  | some m =>
    dsimp only
    cases hst : m.state with
    | issued => exact h.endAccess rfl _
    | orphan =>
      refine (Beside.mid (s := s) ⟨rfl, rfl, rfl, rfl, ?_, rfl, .of_eq rfl⟩ h)
      rw [hm, Option.any_some, hst]
      rfl
    | queued => exact h.raise _

theorem Mid.takeFarResponse {s : State} (h : Mid s) (r : FarResponse) : Mid (s.takeFarResponse r) := by
  unfold State.takeFarResponse
  split
  · exact (farToSlot_beside s _ r).mid h
  · split_ifs
    · exact h.farToSlotM r
    · exact h.raise _

theorem withFar_beside (s : State) (f : Far) : Beside s { s with far := f } := .of_eq rfl rfl rfl rfl rfl

theorem Mid.offerFarResponse {s : State} (h : Mid s) (r : FarResponse) : Mid (s.offerFarResponse r) := by
  unfold State.offerFarResponse
  split_ifs
  · exact (withFar_beside s _).mid h
  · exact h.takeFarResponse r

theorem Mid.takeWaiting {s : State} (h : Mid s) : Mid s.takeWaiting := by
  have hfold : ∀ (l : List FarResponse) (u : State), Mid u → Mid (l.foldl State.offerFarResponse u) := by
    intro l
    induction l with
    | nil => exact fun u hu => hu
    | cons r l ih => exact fun u hu => ih _ (hu.offerFarResponse r)
  exact hfold _ _ ((withFar_beside s _).mid h)

theorem Mid.endPulse {s : State} (h : Mid s) : Mid s.endPulse := by
  unfold State.endPulse
  split_ifs
  · exact ((withFar_beside s _).mid h).takeWaiting
  · exact h

theorem Mid.timeOutM {s : State} (h : Mid s) : Mid s.timeOutM := by
  refine h.endAccess ?_ .timeout
  cases s.transit.slotM <;> rfl

/-! ### Events and steps -/

/-- The laws of the state controller and of the console port. -/
def PortsOk (s : State) : Prop := ControlOk s ∧ ConsoleOk s

theorem PortsOk.event {s t : State} {f : State → State} (h : PortsOk s) (ht : s.event f = .next t)
    (hf : Mid s → Mid (f s)) : PortsOk t := by
  unfold State.event at ht
  obtain rfl := Host.Outcome.next.inj ht
  split_ifs with hpor
  · exact h
  · exact (hf (.of_laws h.1 h.2 (by simpa using hpor))).kick

theorem controlOk_reset : ControlOk State.reset :=
  ⟨by decide, by decide, by decide, (by intro x hx; cases hx), List.Pairwise.nil, fun _ => rfl⟩

theorem consoleOk_reset : ConsoleOk State.reset :=
  ⟨by decide, by decide, by decide, by decide, by decide, by decide, by decide, (by intro x hx; cases hx), by decide,
    (by intro x hx; cases hx), fun _ => ⟨rfl, rfl⟩, by decide, (by intro x hx; cases hx)⟩

theorem portsOk_powerOn (s : State) : PortsOk s.powerOn := by
  obtain ⟨hret, hcursor, hinHand, hplace, halerts, -⟩ := controlOk_reset
  obtain ⟨h1, h2, h3, h4, h5, h6, h7, h8, h9, h10, h11, h12, h13⟩ := consoleOk_reset
  exact ⟨⟨hret, hcursor, hinHand, hplace, halerts, fun _ => rfl⟩, ⟨h1, h2, h3, h4, h5, h6, h7, h8, h9, h10, h11, h12, h13⟩⟩

/-- A part in its power-on state, but for what waits at its links, is lawful. -/
theorem portsOk_of_eq {s : State} (h : s = { State.reset with
    far := { State.reset.far with waiting := s.far.waiting }, pending := s.pending }) : PortsOk s := by
  have hs : s.powerOn = s := h.symm
  rw [← hs]
  exact portsOk_powerOn s

/-- The straps and the levels are sampled on a part in its power-on state (R133, R193). -/
theorem mid_powerUp {s : State} (h : PortsOk s) (hpor : s.ctrl.por = true) (pins : PowerOnPins) : Mid (s.powerUp pins) := by
  obtain ⟨hc, hp⟩ := h
  have hreset := hc.power hpor
  have hhand : s.mem.inHand = none := by rw [hreset]; rfl
  have hslotM : s.transit.slotM = none := by rw [hreset]; rfl
  have hservice : s.console.inService = none := by rw [hreset]; rfl
  have hop : (s.powerUp pins).ctrl.op ≠ .frozen := by
    simp only [State.powerUp]
    split_ifs <;> simp
  have hnone : ∀ x, (s.powerUp pins).mem.inHand = some x → False := fun x hx => by
    have hx : s.mem.inHand = some x := hx
    rw [hhand] at hx
    cases hx
  have hexec : s.console.executes = false := executes_of_noService hservice
  refine ⟨⟨?_, hc.cursor, hc.inHand, fun x hx => (hnone x hx).elim, hc.alerts, rfl⟩, ⟨hp.slots, hp.two, hp.room, hp.response,
    hp.sending, fun hx => ?_, fun x hx => (hnone x hx).elim, fun _ => hexec, fun x hx => (hnone x hx).elim, hp.begun,
    hp.lineRoom⟩, hp.unsent⟩
  · exact iff_of_false (fun hx => by cases hx) hop
  · have hx : s.console.executes = true := hx
    rw [hexec] at hx
    cases hx

theorem setTrigger_beside (s : State) (l : Bool) : Beside s (s.setTrigger l) := ⟨rfl, rfl, rfl, rfl, rfl, rfl, .of_eq rfl⟩

theorem triggerEntries_beside (s : State) : Beside s s.triggerEntries :=
  .of_eq (by simp) (by simp) (by simp) (by simp) (by simp)

theorem PortsOk.exec {s t : State} (h : PortsOk s) (i : Instr) (ht : exec i s = .next t) : PortsOk t := by
  induction i using Instr.rowCases with
  | acceptance req => exact h.event ht (fun hs => hs.offerRequest req)
  | delivery => exact h.event ht (deliver_beside s).mid
  | issue => exact h.event ht (issue_beside s).mid
  | farResponse r =>
    change execFarResponse r s = .next t at ht
    unfold execFarResponse at ht
    split_ifs at ht with hpor
    · obtain rfl := Host.Outcome.next.inj ht
      have hpower := h.1.power hpor
      refine portsOk_of_eq ?_
      unfold State.keepOffer
      rw [hpower]
    · exact h.event ht (fun hs => hs.offerFarResponse r)
  | tick => exact h.event ht (tickAll_beside s).mid
  | farTimeout n =>
    refine h.event ht (fun hs => ?_)
    split_ifs
    · exact (timeOut_beside s n).mid hs
    · exact hs
  | slotMFarTimeout =>
    refine h.event ht (fun hs => ?_)
    split_ifs
    · exact hs.timeOutM
    · exact hs
  | expiry n =>
    refine h.event ht (fun hs => ?_)
    split_ifs
    · exact (expire_beside s n).mid hs
    · exact hs
  | farResetNegation => exact h.event ht Mid.endPulse
  | nearResetAssertion => exact h.event ht (assertNearReset_beside s).mid
  | nearResetNegation => exact h.event ht (Beside.mid (.of_eq rfl rfl rfl rfl rfl))
  | porAssertion =>
    obtain rfl := Host.Outcome.next.inj ht
    exact portsOk_powerOn s
  | porNegation pins =>
    obtain rfl := Host.Outcome.next.inj ht
    split_ifs with hpor
    · exact (mid_powerUp h hpor pins).takeWaiting.kick
    · exact h
  | triggerRisingEdge =>
    have ht : execTriggerRisingEdge s = .next t := ht
    refine h.event ht (fun hs => ?_)
    split_ifs
    · exact hs
    · exact ((setTrigger_beside s true).trans (triggerEntries_beside _)).mid hs
  | triggerFallingEdge =>
    have ht : execTriggerFallingEdge s = .next t := ht
    exact h.event ht (setTrigger_beside s false).mid
  | character f =>
    have ht : execCharacter f s = .next t := ht
    exact h.event ht (fun hs => hs.takeCharacter _)
  | breakEvent =>
    have ht : execBreak s = .next t := ht
    exact h.event ht (fun hs => hs.breakConsole.breakPreload)
  | lineSent => exact h.event ht Mid.finishLine
  | byteEvent b => exact h.event ht (fun hs => hs.readByte b)
  | verb v src ops =>
    rw [exec_verbRow] at ht
    exact h.event ht (fun hs => hs.command v src ops)

/-- The laws do not speak of the queue of commands. -/
theorem PortsOk.pending {s : State} (h : PortsOk s) (rest : List Instr) : PortsOk { s with pending := rest } := by
  obtain ⟨⟨hret, hcursor, hinHand, hplace, halerts, hpower⟩, ⟨h1, h2, h3, h4, h5, h6, h7, h8, h9, h10, h11, h12, h13⟩⟩ := h
  refine ⟨⟨hret, hcursor, hinHand, hplace, halerts, fun hpor => ?_⟩, ⟨h1, h2, h3, h4, h5, h6, h7, h8, h9, h10, h11, h12, h13⟩⟩
  have heq := hpower hpor
  conv_lhs => rw [heq]

/-- Settles O59: every operation of an event keeps the laws as they hold in its middle, and `Mid.kick` settles the port. -/
theorem stepKeepsConsole : Obligations.StepKeepsConsole := by
  unfold Obligations.StepKeepsConsole
  intro s t hc hp ht
  have hs : PortsOk s := ⟨hc, hp⟩
  unfold step at ht
  split at ht
  · obtain rfl := Host.Outcome.next.inj ht
    exact hs
  · rename_i c rest _
    exact (hs.pending rest).exec c ht

end Sys2Proof.Machine
end

section
/-! PROOFS. The reset state and the bound on the queues (R2, R54, R193), power-on, back-pressure, delivery, TRIGGER, and the
responses that complete no access (R1, R11, R17, R25, R35). -/

namespace Sys2Proof.Machine

/-! ### The reset state -/

theorem powerOn_reset : State.reset.powerOn = State.reset := rfl

/-- Settles O60: power-on gives the reset state, and power-on keeps every law. -/
theorem resetKeepsLaws : Obligations.ResetKeepsLaws := by
  unfold Obligations.ResetKeepsLaws
  have hlawful := Lawful.powerOn State.reset
  have hlog := LogOk.powerOn State.reset
  have htables := TablesOk.powerOn State.reset
  rw [powerOn_reset] at hlawful hlog htables
  exact ⟨hlawful.slots, hlawful.transit, hlog, (by intro n hn; cases hn), htables, controlOk_reset, consoleOk_reset⟩

/-! ### The bound on the queues (R2, R54) -/

/-- The traffic slots that carry a live near tag. -/
def State.carriers (s : State) : List SlotNo := allSixteen.filter (fun n => (s.slot n).any (fun a => carriesTag a.state))

/-- The near tag of a traffic slot. -/
def State.tagOf (s : State) (n : SlotNo) : NearTag := ((s.slot n).bind Access.tag).getD 0

theorem State.mem_carriers (s : State) (n : SlotNo) :
    n ∈ s.carriers ↔ ∃ a, s.slot n = some a ∧ carriesTag a.state = true := by
  simp [State.carriers, allSixteen, Option.any_eq_true]

theorem carries_tagOf {s : State} (h : SlotsOk s) {n : SlotNo} (hn : n ∈ s.carriers) : Carries s.slot n (s.tagOf n) := by
  obtain ⟨a, ha, hc⟩ := (s.mem_carriers n).1 hn
  have hne : a.state ≠ .orphan := fun ho => by rw [ho] at hc; cases hc
  obtain ⟨t, ht⟩ := Option.isSome_iff_exists.1 ((h n a ha).tag.2 hne)
  exact ⟨a, ha, hc, by simp [State.tagOf, ha, ht]⟩

theorem length_le_of_subset {α : Type} [DecidableEq α] {l m : List α} (hl : l.Nodup) (h : l ⊆ m) : l.length ≤ m.length :=
  (hl.subperm h).length_le

theorem owed_le_eight {s : State} (hs : SlotsOk s) (ht : TransitOk s) : s.carriers.length + s.near.responses.length ≤ 8 := by
  obtain ⟨-, -, -, htags⟩ := (transitOk_iff s).1 ht
  have hnodup : (s.carriers.map s.tagOf ++ s.near.responses.map RespEntry.tag).Nodup := by
    rw [List.nodup_append]
    refine ⟨?_, htags.entries, ?_⟩
    · refine List.Nodup.map_on (fun m hm n hn heq => ?_) ((List.nodup_finRange 16).filter _)
      exact htags.unique m n _ (carries_tagOf hs hm) (heq ▸ carries_tagOf hs hn)
    · rintro t hcarried u hentry rfl
      obtain ⟨n, hn, rfl⟩ := List.mem_map.1 hcarried
      exact htags.apart n _ (carries_tagOf hs hn) hentry
  have hcard := hnodup.length_le_card
  simpa using hcard

theorem Filed.length_le {s : State} {q : List SlotNo} {st : SlotState} (h : Filed s.slot q st) (hst : carriesTag st = true) :
    q.length ≤ s.carriers.length := by
  refine length_le_of_subset h.nodup (fun n hn => (s.mem_carriers n).2 ?_)
  obtain ⟨a, ha, rfl⟩ := (h.mem_iff n).1 hn
  exact ⟨a, ha, hst⟩

/-- Settles O55: the tags of the slots that carry one and of the entries are distinct (`owed_le_eight`). -/
theorem tagsBoundQueues : Obligations.TagsBoundQueues := by
  unfold Obligations.TagsBoundQueues
  intro s hs ht
  obtain ⟨hhold, hforward, -, -⟩ := (transitOk_iff s).1 ht
  have howed := owed_le_eight hs ht
  have hheld := hhold.length_le rfl
  have hqueued := hforward.length_le rfl
  exact ⟨howed, by omega, by omega⟩

/-! ### The queue of commands -/

/-- Settles O1: both clauses are the definition of a step. -/
theorem stepTakesFront : Obligations.StepTakesFront := by
  unfold Obligations.StepTakesFront
  refine ⟨fun c rest s => rfl, fun s h => ?_⟩
  rw [step, h]

/-! ### Spurious responses (R17) -/

/-- The far tag names no slot that is ISSUED or an orphan. -/
structure NamesNone (s : State) (r : FarResponse) : Prop where
  slot  : ∀ (n : SlotNo) a, r.tag.val = n.val → s.slot n = some a → a.state ≠ .issued ∧ a.state ≠ .orphan
  slotM : ∀ m, r.tag.val = 16 → s.transit.slotM = some m → m.state = .queued

theorem farSlot_eq_some_iff (t : Fin 32) (n : SlotNo) : farSlot t = some n ↔ t.val = n.val := by
  unfold farSlot
  split_ifs with h
  · rw [Option.some.injEq, Fin.ext_iff]
  · have hn := n.isLt
    simp only [false_iff]
    omega

theorem farSlot_eq_none_iff (t : Fin 32) : farSlot t = none ↔ 16 ≤ t.val := by
  unfold farSlot
  split_ifs with h
  · simp only [false_iff]
    omega
  · simp only [true_iff]
    omega

theorem State.takeFarResponse_slot (s : State) {r : FarResponse} {n : SlotNo} (h : r.tag.val = n.val) :
    s.takeFarResponse r = s.farToSlot n r := by
  rw [State.takeFarResponse, (farSlot_eq_some_iff _ n).2 h]

theorem State.takeFarResponse_slotM (s : State) {r : FarResponse} (h : r.tag.val = 16) :
    s.takeFarResponse r = s.farToSlotM r := by
  rw [State.takeFarResponse, (farSlot_eq_none_iff _).2 (by omega)]
  exact if_pos h

theorem State.takeFarResponse_above (s : State) {r : FarResponse} (h : 16 < r.tag.val) :
    s.takeFarResponse r = s.raise (.fs r.tag) := by
  rw [State.takeFarResponse, (farSlot_eq_none_iff _).2 (by omega)]
  exact if_neg (show ¬ r.tag.val = 16 by omega)

theorem State.takeFarResponse_spurious {s : State} {r : FarResponse} (h : NamesNone s r) :
    s.takeFarResponse r = s.raise (.fs r.tag) := by
  rcases Nat.lt_trichotomy r.tag.val 16 with hlt | heq | hgt
  · rw [s.takeFarResponse_slot (n := ⟨r.tag.val, hlt⟩) rfl, State.farToSlot]
    cases ha : s.slot ⟨r.tag.val, hlt⟩ with
    | none => rfl
    | some a =>
      obtain ⟨hissued, horphan⟩ := h.slot ⟨r.tag.val, hlt⟩ a rfl ha
      dsimp only
      cases hst : a.state with
      | issued => exact absurd hst hissued
      | orphan => exact absurd hst horphan
      | held | queued | answering => rfl
  · rw [s.takeFarResponse_slotM heq, State.farToSlotM]
    cases hm : s.transit.slotM with
    | none => rfl
    | some m =>
      dsimp only
      rw [h.slotM m heq hm]
  · exact s.takeFarResponse_above hgt

/-- Responses that are all spurious, taken in order, raise their notices in that order. -/
theorem foldl_offer_spurious {l : List FarResponse} {s : State} (hpulse : s.far.pulse = none) (h : ∀ r ∈ l, NamesNone s r) :
    l.foldl State.offerFarResponse s = { s with console := offerAll s (l.map (fun r => .fs r.tag)) } := by
  induction l generalizing s with
  | nil => rfl
  | cons r l ih =>
    have hoffer : s.offerFarResponse r = s.raise (.fs r.tag) := by
      rw [State.offerFarResponse, State.farResetAsserted, hpulse]
      exact State.takeFarResponse_spurious (h r List.mem_cons_self)
    have hrest : ∀ x ∈ l, NamesNone (s.raise (.fs r.tag)) x := fun x hx =>
      ⟨(h x (List.mem_cons_of_mem r hx)).slot, (h x (List.mem_cons_of_mem r hx)).slotM⟩
    rw [List.foldl_cons, hoffer, ih (s := s.raise (.fs r.tag)) hpulse hrest]
    rfl

theorem State.takeWaiting_spurious {s : State} (hpulse : s.far.pulse = none) (h : ∀ r ∈ s.far.waiting, NamesNone s r) :
    s.takeWaiting = { s with
      far := { s.far with waiting := [] }, console := offerAll s (s.far.waiting.map (fun r => .fs r.tag)) } := by
  rw [State.takeWaiting, foldl_offer_spurious (s := { s with far := { s.far with waiting := [] } }) hpulse
    (fun r hr => ⟨(h r hr).slot, (h r hr).slotM⟩)]
  rfl

/-! ### Power-on (R193) -/

theorem exec_porAssertion (s : State) : exec .porAssertion s = .next s.powerOn := rfl

theorem exec_porNegation {s : State} (h : s.ctrl.por = true) (pins : PowerOnPins) :
    exec (.porNegation pins) s = .next (s.powerUp pins).takeWaiting.kick := by
  change execPorNegation pins s = _
  rw [execPorNegation, if_pos h]

theorem exec_por_none {s : State} (h : s.ctrl.por = true) (c : Instr) (hassert : c ≠ .porAssertion)
    (hnegate : ∀ pins, c ≠ .porNegation pins) (hfar : ∀ r, c ≠ .farResponse r) : exec c s = .next s := by
  induction c using Instr.rowCases with
  | farResponse r => exact absurd rfl (hfar r)
  | porAssertion => exact absurd rfl hassert
  | porNegation pins => exact absurd rfl (hnegate pins)
  | verb v src ops => rw [exec_verbRow]; exact State.event_por h _
  | triggerRisingEdge =>
    change execTriggerRisingEdge s = _
    exact State.event_por h _
  | triggerFallingEdge =>
    change execTriggerFallingEdge s = _
    exact State.event_por h _
  | character f =>
    change execCharacter f s = _
    exact State.event_por h _
  | breakEvent =>
    change execBreak s = _
    exact State.event_por h _
  | _ => exact State.event_por h _

/-- Settles O2: power-on is one constant state, and its negation samples the pins and takes what waits. -/
theorem powerOnAndSampling : Obligations.PowerOnAndSampling := by
  unfold Obligations.PowerOnAndSampling
  refine ⟨fun s => ?_, fun pins s hpor hnone hpulse => ?_, fun pins s hpor => ?_, fun r s hpor => ?_, fun c s hpor h1 h2 h3 =>
    exec_por_none hpor c h1 h2 h3⟩
  · have hslot : ∀ n, s.powerOn.slot n = none := fun n => by simp [State.slot, State.powerOn, State.reset]
    have hentry : ∀ k, s.powerOn.entry k = WatchEntry.offValue := fun k => by
      simp [State.entry, State.powerOn, State.reset]
    have hrecord : ∀ k, s.powerOn.record k = { valid := false, addr := 0, size := .one, value := 0, uses := 0 } := fun k => by
      simp [State.record, State.powerOn, State.reset, SubstRecord.powerOn]
    refine ⟨s.powerOn, exec_porAssertion s, rfl, rfl, hslot, rfl, rfl, rfl, rfl, rfl, rfl, rfl, hentry, rfl, hrecord, ?_⟩
    repeat' constructor
  · have hnames : ∀ r ∈ s.far.waiting, NamesNone (s.powerUp pins) r := by
      intro r hr
      obtain ⟨hslot, hslotM⟩ := hnone r hr
      exact ⟨fun n a hn ha => absurd ((hslot n hn).symm.trans ha) (by simp),
        fun m hm hs => absurd ((hslotM hm).symm.trans hs) (by simp)⟩
    have hwait := State.takeWaiting_spurious (s := s.powerUp pins) hpulse hnames
    rw [exec_porNegation hpor, hwait, State.kick_eq]
    rfl
  · change execPorNegation pins s = _
    rw [execPorNegation, hpor]
    rfl
  · change execFarResponse r s = _
    rw [execFarResponse, if_pos hpor]
    rfl

/-! ### Events of the running part -/

/-- Settles O3: each failing condition of R1 makes the model's test of acceptance fail. -/
theorem acceptanceBackPressure : Obligations.AcceptanceBackPressure := by
  unfold Obligations.AcceptanceBackPressure
  intro s req hrun hfail
  have hno : s.mayAccept req = false := by
    simp only [State.mayAccept, Bool.and_eq_false_iff, Bool.not_eq_false', beq_iff_eq]
    rcases hfail with hgated | hreset | hfull | hlive
    · exact .inl (.inl (.inl hgated))
    · exact .inl (.inl (.inr hreset))
    · refine .inl (.inr ?_)
      rw [State.freeSlot, List.find?_eq_none.2 (fun n _ => by simpa [Option.isSome_iff_ne_none] using hfull n)]
      rfl
    · exact .inr ((s.live_iff req.tag).2 hlive)
  change s.event (fun s => s.offerRequest req) = _
  rw [State.event_running hrun]
  simp only [State.offerRequest, hno, Bool.false_eq_true, if_false]

/-- Settles O4: the placement of a misaligned request. -/
theorem acceptMisaligned : Obligations.AcceptMisaligned := by
  unfold Obligations.AcceptMisaligned
  intro s req n h hmis
  rw [exec_acceptance_takes h, State.accept, hmis]
  rfl

/-- Settles O14: delivery by the head of the near response queue. -/
theorem deliveryTakesHead : Obligations.DeliveryTakesHead := by
  unfold Obligations.DeliveryTakesHead
  intro s hrun
  have hexec : exec .delivery s = .next { s.deliver with console := settle s.deliver.console } := State.event_running hrun _
  refine ⟨fun e rest he => ?_, fun hnil => ?_⟩
  · rw [hexec]
    simp only [State.deliver, he, State.freeNamed]
    cases e.slot <;> rfl
  · rw [hexec, State.deliver, hnil]

theorem entry_triggerEntries (s : State) (k : EntryNo) :
    s.triggerEntries.entry k = if s.ctrl.op = .watch then triggerArmed (s.entry k) else s.entry k := by
  unfold State.triggerEntries
  split_ifs
  · simp [State.entry]
  · rfl

theorem triggerArmed_eq (e : WatchEntry) : triggerArmed e =
    if e.state = .dormant ∧ e.armSource = some .trigger then { e with state := .armed } else e := by
  unfold triggerArmed
  simp

theorem State.triggerEntries_eq (s : State) : s.triggerEntries = { s with watch := s.triggerEntries.watch } := by
  unfold State.triggerEntries
  split_ifs <;> rfl

theorem exec_triggerRisingEdge {s : State} (h : s.running) : exec .triggerRisingEdge s = .next
    { (if s.ctrl.trigger then s else (s.setTrigger true).triggerEntries) with console := settle s.console } := by
  change execTriggerRisingEdge s = _
  rw [execTriggerRisingEdge, State.event_running h]
  split_ifs
  · rfl
  · rw [State.triggerEntries_eq]
    rfl

theorem exec_triggerFallingEdge {s : State} (h : s.running) :
    exec .triggerFallingEdge s = .next { s with ctrl := { s.ctrl with trigger := false }, console := settle s.console } := by
  change execTriggerFallingEdge s = _
  rw [execTriggerFallingEdge, State.event_running h]
  rfl

/-- Settles O16: the entries that an edge arms, one by one. -/
theorem triggerEdges : Obligations.TriggerEdges := by
  unfold Obligations.TriggerEdges
  intro s hrun
  rw [exec_triggerRisingEdge hrun]
  refine ⟨fun hlow => ⟨_, rfl, ?_, fun k => ?_⟩, fun hhigh => ?_, exec_triggerFallingEdge hrun⟩
  · rw [hlow, State.triggerEntries_eq]
    rfl
  · have hentry : ∀ c, ({ (s.setTrigger true).triggerEntries with console := c } : State).entry k =
        if s.ctrl.op = .watch then triggerArmed (s.entry k) else s.entry k := fun c =>
      entry_triggerEntries (s.setTrigger true) k
    simp only [hlow, Bool.false_eq_true, if_false, hentry, triggerArmed_eq]
    constructor
    · rintro ⟨hop, hst, hsrc⟩
      rw [if_pos hop, if_pos ⟨hst, hsrc⟩]
    · intro hno
      split_ifs with hop harm
      · exact absurd ⟨hop, harm⟩ hno
      · rfl
      · rfl
  · rw [hhigh]
    rfl

end Sys2Proof.Machine
end

section
/-! PROOFS. The near reset (R22, Table 1-5). -/

namespace Sys2Proof.Machine

/-! ### One slot -/

/-- The slot is HELD, QUEUED or ISSUED and names the record of this number. -/
def losesRecord (x : Option Access) (q : Word) : Bool := x.any (fun a => carriesTag a.state && a.logSeq == some q)

/-- The state after the near reset of one slot. -/
def State.nearResetOf (s : State) (n : SlotNo) : State := { s with
  transit := { s.transit with slots := s.transit.slots.set n (afterNearReset (s.slot n)) }
  log := { s.log with records := s.log.records.map (fun c => abortedIf (losesRecord (s.slot n) c.seq) c) } }

theorem State.slots_set_same {s : State} {n : SlotNo} {x : Option Access} (hx : s.slot n = x) :
    s.transit.slots.set n x = s.transit.slots := by
  rw [← hx, State.slot]
  exact Vector.set_getElem_self ..

theorem State.modSlot_of_slot {s : State} {n : SlotNo} {a : Access} (ha : s.slot n = some a) (f : Access → Access) :
    s.modSlot n f = { s with transit := { s.transit with slots := s.transit.slots.set n (some (f a)) } } := by
  rw [State.modSlot, ha]
  rfl

theorem State.nearResetSlot_eq (s : State) (n : SlotNo) : s.nearResetSlot n = s.nearResetOf n := by
  unfold State.nearResetSlot
  cases ha : s.slot n with
  | none =>
    simp only [State.nearResetOf, ha, afterNearReset, losesRecord, Option.bind_none, Option.any_none, records_map_notAborted,
      State.slots_set_same ha]
  | some a =>
    have hlog : ∀ q, losesRecord (some a) q = (carriesTag a.state && a.logSeq == some q) := fun q => rfl
    dsimp only
    cases hst : a.state with
    | held | queued =>
      dsimp only
      rw [State.closeRecord_eq .aborted .abort none ha, logClosed_aborted]
      simp only [State.nearResetOf, ha, afterNearReset, hlog, Option.bind_some, hst, carriesTag, Bool.true_and, State.setSlot,
        Vector.set_set]
    | issued =>
      dsimp only
      rw [State.closeRecord_eq .aborted .abort none ha, logClosed_aborted,
        State.modSlot_of_slot (a := { a with logSeq := none }) (by simp [State.slot])]
      simp only [State.nearResetOf, ha, afterNearReset, hlog, Option.bind_some, hst, carriesTag, Bool.true_and,
        Vector.set_set]
    | answering =>
      simp only [State.nearResetOf, ha, afterNearReset, hlog, Option.bind_some, hst, carriesTag, Bool.false_and,
        records_map_notAborted]
      rfl
    | orphan =>
      simp only [State.nearResetOf, ha, afterNearReset, hlog, Option.bind_some, hst, carriesTag, Bool.false_and,
        records_map_notAborted, State.slots_set_same ha]

/-! ### All slots -/

/-- The capture records after the near reset of the slots `l` (R22). -/
def State.lostRecords (s : State) (l : List SlotNo) : List CaptureRecord :=
  s.log.records.map (fun c => abortedIf (l.any (fun n => losesRecord (s.slot n) c.seq)) c)

/-- The near reset has gone through the slots `l` of `s`. -/
structure NearResetTo (s : State) (l : List SlotNo) (t : State) : Prop where
  frame : t = { s with
    transit := { s.transit with slots := t.transit.slots }
    log := { s.log with records := s.lostRecords l } }
  slot  : ∀ n, t.slot n = if n ∈ l then afterNearReset (s.slot n) else s.slot n

theorem nearReset_fold (s : State) {l : List SlotNo} (hl : l.Nodup) : NearResetTo s l (l.foldl State.nearResetSlot s) := by
  induction l using List.reverseRecOn with
  | nil => exact ⟨by simp [State.lostRecords, abortedIf], fun n => rfl⟩
  | append_singleton l n ih =>
    have hnd := List.nodup_append.1 hl
    have hn : n ∉ l := fun hc => hnd.2.2 n hc n (List.mem_singleton_self n) rfl
    obtain ⟨hframe, hslot⟩ := ih hnd.1
    rw [List.foldl_append, List.foldl_cons, List.foldl_nil, State.nearResetSlot_eq]
    generalize l.foldl State.nearResetSlot s = u at hframe hslot
    have hun : u.slot n = s.slot n := by rw [hslot, if_neg hn]
    have hrecords : u.log.records.map (fun c => abortedIf (losesRecord (u.slot n) c.seq) c) = s.lostRecords (l ++ [n]) := by
      have hlog : u.log.records = s.lostRecords l := (congrArg (fun v : State => v.log.records) hframe :)
      rw [hlog, hun]
      simp [State.lostRecords, abortedIf_abortedIf]
    refine ⟨?_, fun m => ?_⟩
    · rw [State.nearResetOf, hrecords, hun]
      obtain ⟨U, rfl⟩ : ∃ U, u = { s with
        transit := { s.transit with slots := U }, log := { s.log with records := s.lostRecords l } } := ⟨_, hframe⟩
      rfl
    · have hset : (u.nearResetOf n).slot m = (u.setSlot n (afterNearReset (u.slot n))).slot m := rfl
      rw [hset, State.slot_setSlot, hun, hslot]
      by_cases hm : n = m
      · subst hm
        simp
      · simp [hm, Ne.symm hm]

theorem losesRecord_iff (s : State) (q : Word) : allSixteen.any (fun n => losesRecord (s.slot n) q) = true ↔
    ∃ n a, s.slot n = some a ∧ (a.state = .held ∨ a.state = .queued ∨ a.state = .issued) ∧ a.logSeq = some q := by
  have hcar : ∀ st : SlotState, carriesTag st = true ↔ (st = .held ∨ st = .queued ∨ st = .issued) := by
    intro st
    cases st <;> decide
  simp [losesRecord, allSixteen, Option.any_eq_true, hcar]

/-- Settles O15: the reset of all slots (`nearReset_fold`), with the queues emptied and the notice raised. -/
theorem nearReset : Obligations.NearReset := by
  unfold Obligations.NearReset
  intro s hrun
  refine ⟨fun hlow => ?_, fun hhigh => ?_, State.event_running hrun _⟩
  · obtain ⟨hframe, hslot⟩ := nearReset_fold s (List.nodup_finRange 16)
    have hall : ∀ n, (allSixteen.foldl State.nearResetSlot s).slot n = afterNearReset (s.slot n) := fun n => by
      rw [allSixteen, hslot, if_pos (List.mem_finRange n)]
    refine ⟨_, State.event_running hrun _, ?_⟩
    rw [State.assertNearReset, hlow]
    rw [← allSixteen] at hframe
    generalize allSixteen.foldl State.nearResetSlot s = u at hframe hall
    have hrecords : u.log.records = s.lostRecords allSixteen := (congrArg (fun v : State => v.log.records) hframe :)
    refine ⟨?_, fun n a ha hst => (hall n).trans ?_, fun n a ha hst => (hall n).trans ?_, fun n a ha hst => (hall n).trans ?_,
      fun n hn => (hall n).trans ?_, ?_, fun i c hc => ?_⟩
    · obtain ⟨U, rfl⟩ : ∃ U, u = { s with
        transit := { s.transit with slots := U }, log := { s.log with records := s.lostRecords allSixteen } } := ⟨_, hframe⟩
      rfl
    · rw [ha, afterNearReset, Option.bind_some]
      rcases hst with hst | hst | hst <;> rw [hst]
    · rw [ha, afterNearReset, Option.bind_some, hst]
    · rw [ha, afterNearReset, Option.bind_some, hst]
    · rw [hn]
      rfl
    · change u.log.records.length = _
      rw [hrecords, State.lostRecords, List.length_map]
    · have hget : u.log.records[i]? =
          some (abortedIf (allSixteen.any (fun n => losesRecord (s.slot n) c.seq)) c) := by
        rw [hrecords, State.lostRecords, List.getElem?_map, hc]
        rfl
      refine ⟨fun hnamed => hget.trans ?_, fun hfree => hget.trans ?_⟩
      · rw [(losesRecord_iff s c.seq).2 hnamed]
        rfl
      · rw [Bool.eq_false_iff.2 (mt (losesRecord_iff s c.seq).1 hfree)]
        rfl
  · change s.event _ = _
    rw [State.event_running hrun]
    simp only [State.assertNearReset, hhigh, if_true]

end Sys2Proof.Machine
end

section
/-! PROOFS. The far link: the issue arbiter, far responses, the end of the FAR_RESET pulse, ticks and far timeouts (R13 to R25,
R120 to R123). -/

namespace Sys2Proof.Machine

/-! ### The issue arbiter (R13, R14) -/

theorem exec_issue {s : State} (h : s.running) :
    exec .issue s = .next { s.issue with console := settle s.issue.console } := State.event_running h _

theorem State.slotMWaits_iff (s : State) : s.slotMWaits = true ↔ ∃ m, s.transit.slotM = some m ∧ m.state = .queued := by
  simp [State.slotMWaits, Option.any_eq_true]

theorem State.slotMWaits_eq_false (s : State) :
    s.slotMWaits = false ↔ ∀ m, s.transit.slotM = some m → m.state ≠ .queued := by
  simp [← Bool.not_eq_true, s.slotMWaits_iff]

theorem State.issue_of_chosen {s : State} (hpulse : s.far.pulse = none) : s.issue =
    match s.chosen with
    | none => s
    | some .forwardQueue => (s.markWinner .forwardQueue).issueForward
    | some .slotM => (s.markWinner .slotM).issueSlotM := by
  have hopen : s.farResetAsserted = false := by rw [State.farResetAsserted, hpulse]; rfl
  unfold State.issue
  rw [hopen]
  cases s.chosen with
  | none => rfl
  | some c => cases c <;> rfl

theorem State.issue_forward {s : State} {n : SlotNo} {rest : List SlotNo} {a : Access} (hpulse : s.far.pulse = none)
    (hq : s.far.forward = n :: rest) (ha : s.slot n = some a) (hwins : s.slotMWaits = false ∨ s.far.lastWinner = .slotM) :
    s.issue = { s with
      transit := { s.transit with
        slots := s.transit.slots.set n (some { a with state := .issued, farTimer := loaded s.ctrl.params.farTimeout }) }
      far := { s.far with
        forward := rest
        lastWinner := if s.slotMWaits then .forwardQueue else s.far.lastWinner
        lastRequest := some (slotRequest n a) } } := by
  have hchosen : s.chosen = some .forwardQueue := by
    unfold State.chosen
    rw [hq]
    rcases hwins with hw | hw
    · rw [hw]
    · rw [hw]
      cases s.slotMWaits <;> rfl
  have hmark : s.markWinner .forwardQueue =
      { s with far := { s.far with lastWinner := if s.slotMWaits then .forwardQueue else s.far.lastWinner } } := by
    unfold State.markWinner
    rw [hq]
    cases s.slotMWaits <;> rfl
  rw [State.issue_of_chosen hpulse, hchosen, hmark]
  exact State.issueForward_eq (s := { s with
    far := { s.far with lastWinner := if s.slotMWaits then .forwardQueue else s.far.lastWinner } }) hq ha

theorem State.issue_slotM {s : State} {m : MAccess} (hpulse : s.far.pulse = none) (hm : s.transit.slotM = some m)
    (hq : m.state = .queued) (hwins : s.far.forward = [] ∨ s.far.lastWinner = .forwardQueue) :
    s.issue = { s with
      transit := { s.transit with
        slotM := some { m with state := .issued, farTimer := loaded s.ctrl.params.farTimeout } }
      far := { s.far with
        lastWinner := if s.far.forward = [] then s.far.lastWinner else .slotM
        lastRequest := some (slotMRequest m) } } := by
  have hwaits : s.slotMWaits = true := (s.slotMWaits_iff).2 ⟨m, hm, hq⟩
  have hchosen : s.chosen = some .slotM := by
    unfold State.chosen
    rw [hwaits]
    cases hf : s.far.forward with
    | nil => rfl
    | cons n rest =>
      rw [hf] at hwins
      rw [hwins.resolve_left (List.cons_ne_nil _ _)]
  have hmark : s.markWinner .slotM =
      { s with far := { s.far with lastWinner := if s.far.forward = [] then s.far.lastWinner else .slotM } } := by
    unfold State.markWinner
    by_cases hf : s.far.forward = []
    · have hempty : s.far.forward.isEmpty = true := List.isEmpty_iff.2 hf
      rw [hempty, if_pos hf]
      rfl
    · have hempty : s.far.forward.isEmpty = false := by simpa using hf
      rw [hempty, hwaits, if_neg hf]
      rfl
  rw [State.issue_of_chosen hpulse, hchosen, hmark]
  simp only [State.issueSlotM, hm]
  rfl

/-- Settles O17: the arbiter's choice, and the issue of the chosen contender. -/
theorem issueContest : Obligations.IssueContest := by
  unfold Obligations.IssueContest
  intro s hrun
  rw [exec_issue hrun]
  refine ⟨fun hpulse => ?_, fun hpulse hnil hm => ?_, fun n rest a hpulse hq ha hwins => ?_,
    fun m hpulse hm hq hwins => ?_⟩
  · have hasserted : s.farResetAsserted = true := by simpa [State.farResetAsserted, Option.isSome_iff_ne_none] using hpulse
    rw [State.issue, if_pos hasserted]
  · have hchosen : s.chosen = none := by rw [State.chosen, hnil, (s.slotMWaits_eq_false).2 hm]
    rw [State.issue_of_chosen hpulse, hchosen]
  · rw [State.issue_forward hpulse hq ha (hwins.imp_left (s.slotMWaits_eq_false).2)]
    rfl
  · rw [State.issue_slotM hpulse hm hq hwins]
    rfl

/-! ### Far responses (R15 to R17) -/

theorem exec_farResponse {s : State} (h : s.running) (hpulse : s.far.pulse = none) (r : FarResponse) :
    exec (.farResponse r) s =
      .next { s.takeFarResponse r with console := settle (s.takeFarResponse r).console } := by
  have hpor : s.ctrl.por = false := h
  have hoffer : s.offerFarResponse r = s.takeFarResponse r := by
    rw [State.offerFarResponse, State.farResetAsserted, hpulse]
    rfl
  change execFarResponse r s = _
  rw [execFarResponse, if_neg (by rw [hpor]; exact Bool.false_ne_true), ← hoffer]
  exact State.event_running h _

theorem exec_farResponse_waits {s : State} (h : s.running) (hpulse : s.far.pulse ≠ none) (r : FarResponse) :
    exec (.farResponse r) s = .next { s with
      far := { s.far with waiting := s.far.waiting ++ [r] }, console := settle s.console } := by
  have hpor : s.ctrl.por = false := h
  have hasserted : s.farResetAsserted = true := by simpa [State.farResetAsserted, Option.isSome_iff_ne_none] using hpulse
  have hoffer : s.offerFarResponse r = s.keepOffer r := by rw [State.offerFarResponse, if_pos hasserted]
  have hevent := State.event_running h (fun s => s.offerFarResponse r)
  dsimp only at hevent
  rw [hoffer] at hevent
  change execFarResponse r s = _
  rw [execFarResponse, hpor]
  exact hevent

theorem farData_eq (a : Access) (r : FarResponse) : farData a r = readData a.cls (maskData a.size r.lanes) := by
  unfold farData readData
  cases a.cls <;> rfl

/-- The reason of a far response's answer (R15). -/
def farReason (r : FarResponse) : Reason := if r.ok then .ok else .fault

/-- The data of a far response's answer (R15, R190). -/
def farRead (a : Access) (r : FarResponse) : Option Data :=
  if r.ok then readData a.cls (maskData a.size r.lanes) else none

theorem State.completeSlot_eq {s : State} {n : SlotNo} {a : Access} {g : NearTag} (r : FarResponse) (ha : s.slot n = some a)
    (hg : a.tag = some g) : s.completeSlot n a r = { s with
      transit := { s.transit with slots := s.transit.slots.set n (some (answered a)) }
      near := { s.near with
        responses := s.near.responses ++ [{ tag := g, reason := farReason r, data := farRead a r, slot := some n }] }
      log := logClosed s.log a.logSeq (outcomeOfMark (s.recordMark n)) (farReason r) (farRead a r) } := by
  unfold State.completeSlot farReason farRead
  dsimp only
  cases r.ok with
  | true =>
    simp only [if_true]
    rw [State.closeAnswer_eq _ .ok _ ha hg, farData_eq]
  | false =>
    simp only [Bool.false_eq_true, if_false]
    rw [State.closeAnswer_eq _ .fault _ ha hg]

theorem State.recordMark_of_find {s : State} {n : SlotNo} {a : Access} {q : Word} {c : CaptureRecord} {m : Option PathMark}
    (ha : s.slot n = some a) (hq : a.logSeq = some q) (hc : s.log.records.find? (fun c => c.seq = q) = some c)
    (hm : c.status = .opened m) : s.recordMark n = m := by
  unfold State.recordMark State.slotSeq
  rw [ha, Option.bind_some, hq]
  dsimp only
  rw [hc]
  obtain ⟨_, _, _, _, _, _, _, _, _, _, _, status⟩ := c
  dsimp only at hm
  subst hm
  rfl

/-- Settles O18: the response answers the slot and closes its record by the mark of its path. -/
theorem farResponseCompletes : Obligations.FarResponseCompletes := by
  unfold Obligations.FarResponseCompletes
  intro s r n a g hrun hpulse htag ha hst hg
  have htake : s.takeFarResponse r = s.completeSlot n a r := by
    rw [s.takeFarResponse_slot htag, State.farToSlot, ha]
    dsimp only
    rw [hst]
  refine ⟨farReason r, farRead a r, _,
    fun hok => ?_, fun hok => ?_, exec_farResponse hrun hpulse r, ?_, fun hnone => ?_, fun q c mark hq hc hmark => ?_⟩
  · simp [farReason, farRead, hok]
  · simp [farReason, farRead, hok]
  · rw [htake, State.completeSlot_eq r ha hg]
  · rw [htake, State.completeSlot_eq r ha hg, hnone]
    rfl
  · rw [htake, State.completeSlot_eq r ha hg, hq, State.recordMark_of_find ha hq hc hmark]
    rcases mark with _ | (_ | _) <;> rfl

theorem namesNone_of_dropped {s : State} {r : FarResponse}
    (h : (∃ n : SlotNo, r.tag.val = n.val ∧ ∀ a, s.slot n = some a → a.state ≠ .issued ∧ a.state ≠ .orphan) ∨
      (r.tag.val = 16 ∧ ∀ m, s.transit.slotM = some m → m.state = .queued) ∨ 16 < r.tag.val) : NamesNone s r := by
  rcases h with ⟨n, hn, hslot⟩ | ⟨htag, hslotM⟩ | habove
  · refine ⟨fun k a hk ha => ?_, fun m hm => ?_⟩
    · obtain rfl : k = n := Fin.ext (hk.symm.trans hn)
      exact hslot a ha
    · have hlt := n.isLt
      omega
  · refine ⟨fun k a hk => ?_, fun m _ => hslotM m⟩
    have hlt := k.isLt
    omega
  · refine ⟨fun k a hk => ?_, fun m hm => ?_⟩
    · have hlt := k.isLt
      omega
    · omega

/-- Settles O19: an orphan is freed, and every other response that completes no access is spurious. -/
theorem farResponseDropped : Obligations.FarResponseDropped := by
  unfold Obligations.FarResponseDropped
  intro s r hrun
  refine ⟨fun hpulse => exec_farResponse_waits hrun hpulse r, fun hpulse => ?_⟩
  rw [exec_farResponse hrun hpulse]
  refine ⟨fun n a htag ha hst => ?_, fun m htag hm hst => ?_, fun h => ?_⟩
  · rw [s.takeFarResponse_slot htag, State.farToSlot, ha]
    dsimp only
    rw [hst]
    rfl
  · rw [s.takeFarResponse_slotM htag, State.farToSlotM, hm]
    dsimp only
    rw [hst]
    rfl
  · rw [State.takeFarResponse_spurious (namesNone_of_dropped h)]
    rfl

/-! ### The end of the FAR_RESET pulse (R25) -/

theorem exec_farResetNegation {s : State} (h : s.running) :
    exec .farResetNegation s = .next { s.endPulse with console := settle s.endPulse.console } := State.event_running h _

theorem State.endPulse_due {s : State} (h : s.far.pulse = some 0) :
    s.endPulse = ({ s with far := { s.far with pulse := none } } : State).takeWaiting := if_pos h

/-- Settles O21: the pulse's negation takes the responses that waited, in order. -/
theorem farResetNegation : Obligations.FarResetNegation := by
  unfold Obligations.FarResetNegation
  intro s hrun
  rw [exec_farResetNegation hrun]
  refine ⟨fun hpulse => ?_, fun hpulse hnil => ?_, fun r hpulse hone => ?_, fun hpulse hslots hslotM => ?_⟩
  · rw [State.endPulse, if_neg hpulse]
  · rw [State.endPulse_due hpulse, State.takeWaiting_nil (s := { s with far := { s.far with pulse := none } }) hnil]
  · rw [State.endPulse_due hpulse, State.takeWaiting_one (s := { s with far := { s.far with pulse := none } }) hone,
      exec_farResponse (s := { s with far := { s.far with pulse := none, waiting := [] } }) hrun rfl]
    rfl
  · have hnames : ∀ r ∈ s.far.waiting, NamesNone { s with far := { s.far with pulse := none } } r := fun r _ =>
      ⟨fun n a _ ha => hslots n a ha, fun m _ hm => hslotM m hm⟩
    rw [State.endPulse_due hpulse,
      State.takeWaiting_spurious (s := { s with far := { s.far with pulse := none } }) rfl hnames]
    rfl

/-! ### Ticks and far timeouts (R18 to R20, R120) -/

theorem tickTimer_eq (t : Option Count) : tickTimer t = t.map (fun c => if c = 0 then 0 else c - 1) := by
  cases t <;> rfl

/-- Settles O22: the tick of each slot and of slot M. -/
theorem tickCounts : Obligations.TickCounts := by
  unfold Obligations.TickCounts
  intro s hrun
  have hslot : ∀ c n, ({ s.tickAll with console := c } : State).slot n = (s.slot n).map (tickSlot (s.ctrl.op == .frozen)) :=
    fun c n => s.slot_tickAll n
  refine ⟨_, State.event_running hrun _, rfl, fun n hn => ?_, fun n a ha => ?_, rfl⟩
  · rw [hslot, hn]
    rfl
  · rw [hslot, ha, Option.map_some]
    simp only [tickSlot, tickTimer_eq, beq_iff_eq]

theorem exec_farTimeout {s : State} (h : s.running) (n : SlotNo) : exec (.farTimeout n) s =
    .next { (if s.farExpiryDue n then s.timeOut n else s) with
      console := settle (if s.farExpiryDue n then s.timeOut n else s).console } := State.event_running h _

theorem State.farExpiryDue_iff (s : State) (n : SlotNo) :
    s.farExpiryDue n = true ↔ ∃ a, s.slot n = some a ∧ a.state = .issued ∧ a.farTimer = some 0 := by
  simp [State.farExpiryDue, Option.any_eq_true]

/-- Settles O23: the timeout of a slot whose far timer stands at zero, and of no other. -/
theorem farTimeout : Obligations.FarTimeout := by
  unfold Obligations.FarTimeout
  intro s n hrun
  rw [exec_farTimeout hrun]
  refine ⟨fun a g ha hst htimer hg => ?_, fun hno => ?_⟩
  · rw [if_pos ((s.farExpiryDue_iff n).2 ⟨a, ha, hst, htimer⟩), State.timeOut_eq ha hg]
    rfl
  · have hnot : ¬ s.farExpiryDue n = true := fun hc => by
      obtain ⟨a, ha, hst, htimer⟩ := (s.farExpiryDue_iff n).1 hc
      exact hno a ha ⟨hst, htimer⟩
    rw [if_neg hnot]

end Sys2Proof.Machine
end

section
/-! PROOFS. Acceptance and judgement (R1 to R9, R30 to R44, R101 to R107). -/

namespace Sys2Proof.Machine

/-! ### Notices offered in order -/

theorem offerAll_append (s : State) (xs ys : List Notice) :
    offerAll s (xs ++ ys) = offerAll { s with console := offerAll s xs } ys := List.foldl_append ..

theorem offerAll_cons (s : State) (x : Notice) (xs : List Notice) :
    offerAll s (x :: xs) = offerAll { s with console := offerNotice s.ctrl.params.quiet x s.console } xs := rfl

/-! ### Entries under a judgement (R32 to R34) -/

theorem judgedEntry_action (e : WatchEntry) (j : Judged) (fired : List EntryNo) : (judgedEntry e j fired).action = e.action := by
  unfold judgedEntry WatchEntry.afterMatch WatchEntry.fired
  dsimp only
  split_ifs <;> rfl

theorem judgedEntry_record (e : WatchEntry) (j : Judged) (fired : List EntryNo) : (judgedEntry e j fired).record = e.record := by
  unfold judgedEntry WatchEntry.afterMatch WatchEntry.fired
  dsimp only
  split_ifs <;> rfl

theorem satInc_count (c : Count) : satInc c = if c = 0xFFFF then 0xFFFF else c + 1 := by
  have hones : BitVec.allOnes 16 = 0xFFFF := by decide
  rw [satInc, hones]
  split_ifs with h
  · exact h
  · rfl

theorem armedBy_iff (s : State) (req : NearRequest) (e : WatchEntry) :
    armedBy e (s.firedEntries (judgedOf req)) = true ↔
      e.state = .dormant ∧ ∃ m, e.armSource = some (.entry m) ∧ Fires (s.entry m) req := by
  unfold armedBy
  cases hsrc : e.armSource with
  | none => simp
  | some src =>
    cases src with
    | trigger => simp
    | entry m => simp [← s.mem_firedEntries]

/-- R32 to R34 for one entry. -/
theorem judgedEntry_cases (s : State) (req : NearRequest) (e : WatchEntry) :
    (Matches e req → e.remaining ≠ 0 →
      judgedEntry e (judgedOf req) (s.firedEntries (judgedOf req)) = { e with remaining := e.remaining - 1 }) ∧
    (Fires e req → judgedEntry e (judgedOf req) (s.firedEntries (judgedOf req)) = e.fired) ∧
    (e.state = .dormant → (∃ m, e.armSource = some (.entry m) ∧ Fires (s.entry m) req) →
      judgedEntry e (judgedOf req) (s.firedEntries (judgedOf req)) = { e with state := .armed }) ∧
    (¬ Matches e req → ¬ (e.state = .dormant ∧ ∃ m, e.armSource = some (.entry m) ∧ Fires (s.entry m) req) →
      judgedEntry e (judgedOf req) (s.firedEntries (judgedOf req)) = e) := by
  unfold judgedEntry WatchEntry.afterMatch
  have hmatch := entryMatches_iff e req
  have harmed := armedBy_iff s req e
  refine ⟨fun hm hr => ?_, fun hf => ?_, fun hd hm => ?_, fun hm ha => ?_⟩
  · rw [if_pos (hmatch.2 hm), if_neg hr]
  · rw [if_pos (hmatch.2 hf.1), if_pos hf.2]
  · have hno : ¬ Matches e req := fun hc => by simpa [hd] using hc.armed
    rw [if_neg (mt hmatch.1 hno), if_pos (harmed.2 ⟨hd, hm⟩)]
  · rw [if_neg (mt hmatch.1 hm), if_neg (mt harmed.1 ha)]

theorem fired_once {e : WatchEntry} (h : e.once = true) :
    e.fired = { e with state := .spent, fires := if e.fires = 0xFFFF then 0xFFFF else e.fires + 1 } := by
  simp [WatchEntry.fired, h, satInc_count]

theorem fired_again {e : WatchEntry} (h : e.once = false) : e.fired = { e with
    reload := e.pendingReload.getD e.reload
    pendingReload := none
    remaining := e.pendingReload.getD e.reload
    fires := if e.fires = 0xFFFF then 0xFFFF else e.fires + 1 } := by
  simp [WatchEntry.fired, WatchEntry.applyPending, WatchEntry.reloaded, h, satInc_count]

/-! ### Alerts (R40, R126) -/

theorem mem_joinAlerts (e : EntryNo) (l : List EntryNo) (k : EntryNo) : k ∈ joinAlerts e l ↔ k = e ∨ k ∈ l := by
  simp [joinAlerts, allSixteen]

/-- The entries of `l` have joined the alert set of `s`, each new member with its notice. -/
structure Alerted (s : State) (l : List EntryNo) (t : State) : Prop where
  frame : t = { s with
    alerts := t.alerts
    console := offerAll s ((l.filter (fun k => !s.alerts.contains k)).map Notice.al) }
  mem   : ∀ k, k ∈ t.alerts ↔ k ∈ s.alerts ∨ k ∈ l

theorem State.joinAlert_member {s : State} {e : EntryNo} (h : s.alerts.contains e = true) : s.joinAlert e = s := if_pos h

theorem State.joinAlert_new {s : State} {e : EntryNo} (h : s.alerts.contains e = false) : s.joinAlert e =
    { s with alerts := joinAlerts e s.alerts, console := offerNotice s.ctrl.params.quiet (.al e) s.console } := by
  rw [State.joinAlert, h]
  rfl

theorem alerted_foldl {l : List EntryNo} (hl : l.Nodup) (s : State) : Alerted s l (l.foldl State.joinAlert s) := by
  induction l generalizing s with
  | nil => exact ⟨rfl, fun k => by simp⟩
  | cons e l ih =>
    obtain ⟨he, hnd⟩ := List.nodup_cons.1 hl
    rw [List.foldl_cons]
    cases hc : s.alerts.contains e with
    | true =>
      rw [State.joinAlert_member hc]
      obtain ⟨hframe, hmem⟩ := ih hnd s
      refine ⟨?_, fun k => ?_⟩
      · rw [List.filter_cons_of_neg (by rw [hc]; decide)]
        exact hframe
      · have hin : e ∈ s.alerts := by simpa using hc
        rw [hmem, List.mem_cons]
        constructor
        · exact fun h => h.imp_right .inr
        · rintro (h | rfl | h)
          · exact .inl h
          · exact .inl hin
          · exact .inr h
    | false =>
      rw [State.joinAlert_new hc]
      obtain ⟨hframe, hmem⟩ := ih hnd { s with
        alerts := joinAlerts e s.alerts, console := offerNotice s.ctrl.params.quiet (.al e) s.console }
      have hfilter : l.filter (fun k => !(joinAlerts e s.alerts).contains k) = l.filter (fun k => !s.alerts.contains k) := by
        refine List.filter_congr (fun k hk => ?_)
        have hne : k ≠ e := fun h => he (h ▸ hk)
        have hiff : k ∈ joinAlerts e s.alerts ↔ k ∈ s.alerts := by simp [mem_joinAlerts, hne]
        simp [hiff]
      refine ⟨?_, fun k => ?_⟩
      · rw [List.filter_cons_of_pos (by rw [hc]; rfl), List.map_cons, offerAll_cons, ← hfilter]
        exact hframe
      · rw [hmem, mem_joinAlerts, List.mem_cons]
        tauto

/-! ### The capture record of a judgement (R39, R101 to R105) -/

/-- The log after a judgement has asked for its record, and the number that its slot then holds. -/
def State.recorded (s : State) (n : SlotNo) (req : NearRequest) (fired : List EntryNo) (owner : Option EntryNo)
    (act : Option Action) : Log × Option Word :=
  match owner with
  | none => (s.log, none)
  | some e =>
    if recordWanted act then
      match s.log.make (newRecord s n req fired e (dispOfAction act)) with
      | some l => (l, some l.counter)
      | none => (s.log.countLost, none)
    else (s.log, none)

section
variable (s : State) (n : SlotNo) (req : NearRequest) (fired : List EntryNo)

theorem State.recorded_unwanted {owner : Option EntryNo} {act : Option Action} (h : recordWanted act = false) :
    s.recorded n req fired owner act = (s.log, none) := by
  unfold State.recorded
  cases owner <;> simp [h]

theorem State.recorded_made {e : EntryNo} {act : Option Action} {l : Log} (h : recordWanted act = true)
    (hl : s.log.make (newRecord s n req fired e (dispOfAction act)) = some l) :
    s.recorded n req fired (some e) act = (l, some l.counter) := by
  simp [State.recorded, h, hl]

theorem State.recorded_lost {e : EntryNo} {act : Option Action} (h : recordWanted act = true)
    (hl : s.log.make (newRecord s n req fired e (dispOfAction act)) = none) :
    s.recorded n req fired (some e) act = (s.log.countLost, none) := by
  simp [State.recorded, h, hl]

end

theorem Log.make_counter {l m : Log} {r : Word → CaptureRecord} (h : l.make r = some m) : m.counter = l.counter + 1 := by
  unfold Log.make at h
  split_ifs at h <;> obtain rfl := Option.some.inj h <;> rfl

theorem word_add_one_ne (w : Word) : w + 1 ≠ w := by
  intro h
  have hn := congrArg BitVec.toNat h
  rw [BitVec.toNat_add] at hn
  have hlt := w.isLt
  have hone : (1 : Word).toNat = 1 := rfl
  rw [hone] at hn
  omega

/-- The slot holds a number exactly when the counter has gone on to it (R101). -/
theorem State.recorded_seq (s : State) (n : SlotNo) (req : NearRequest) (fired : List EntryNo) (owner : Option EntryNo)
    (act : Option Action) : (s.recorded n req fired owner act).2 =
      if (s.recorded n req fired owner act).1.counter = s.log.counter then none
      else some (s.recorded n req fired owner act).1.counter := by
  cases owner with
  | none => exact (if_pos rfl).symm
  | some e =>
    cases hw : recordWanted act with
    | false =>
      rw [s.recorded_unwanted n req fired hw]
      exact (if_pos rfl).symm
    | true =>
      cases hm : s.log.make (newRecord s n req fired e (dispOfAction act)) with
      | none =>
        rw [s.recorded_lost n req fired hw hm]
        exact (if_pos rfl).symm
      | some l =>
        rw [s.recorded_made n req fired hw hm]
        dsimp only
        rw [Log.make_counter hm, if_neg (word_add_one_ne _)]

/-! ### The state in which a judged access is placed -/

/-- The access with this log sequence number (R101). -/
def numbered (a : Access) (q : Option Word) : Access := { a with logSeq := q }

/-- The access of a judged request before its placement. -/
def judgedAccess (s : State) (n : SlotNo) (req : NearRequest) (fired : List EntryNo) (owner : Option EntryNo)
    (act : Option Action) : Access :=
  numbered (accessOf s req .queued (dispOfAction act) owner) (s.recorded n req fired owner act).2

/-- The state after judgement, alerts and record, with the access in its slot (R42). -/
def State.judged (s : State) (n : SlotNo) (req : NearRequest) (fired : List EntryNo) (owner : Option EntryNo)
    (act : Option Action) (al : List EntryNo) : State := { s with
  watch := (s.judgeEntries (judgedOf req)).watch
  alerts := al
  console := offerAll s ((fired.filter (fun k => (s.entry k).alert && !s.alerts.contains k)).map Notice.al)
  log := (s.recorded n req fired owner act).1
  transit := accepted s n (judgedAccess s n req fired owner act) }

theorem State.recordJudged_eq {s t : State} {n : SlotNo} {a : Access} (req : NearRequest) (fired : List EntryNo)
    (owner : Option EntryNo) (act : Option Action) (ha : t.slot n = some a) (hlog : t.log = s.log) (htime : t.time = s.time)
    (hseq : a.logSeq = none) :
    t.recordJudged n req fired owner act = { t with
      log := (s.recorded n req fired owner act).1
      transit := { t.transit with
        slots := t.transit.slots.set n (some (numbered a (s.recorded n req fired owner act).2)) } } := by
  have hsame : numbered a none = a := by rw [numbered, ← hseq]
  have hset : t.transit.slots.set n (some a) = t.transit.slots := State.slots_set_same ha
  unfold State.recordJudged State.recorded
  cases owner with
  | none => simp only [hsame, hset, ← hlog]
  | some e =>
    dsimp only
    split_ifs
    · unfold State.makeRecord
      have hrec : newRecord t n req fired e (dispOfAction act) = newRecord s n req fired e (dispOfAction act) := by
        funext q
        simp only [newRecord, htime]
      rw [hrec, hlog]
      cases s.log.make (newRecord s n req fired e (dispOfAction act)) with
      | none => simp only [hsame, hset]
      | some l =>
        dsimp only
        rw [State.modSlot_of_slot (s := { t with log := l }) (a := a) ha]
        rfl
    · simp only [hsame, hset, ← hlog]

theorem judgeEntries_watch (s : State) (j : Judged) (al : List EntryNo) (c : Console) :
    ({ s with alerts := al, console := c } : State).judgeEntries j =
      { s with alerts := al, console := c, watch := (s.judgeEntries j).watch } := rfl

theorem slot_takeSlot_same (s : State) (n : SlotNo) (a : Access) : (s.takeSlot n a).slot n = some a := by
  have hset : (s.takeSlot n a).slot n = (s.setSlot n (some a)).slot n := rfl
  rw [hset, State.slot_setSlot_same]

theorem firedEntries_nodup (s : State) (j : Judged) : (s.firedEntries j).Nodup := (List.nodup_finRange 16).filter _

/-- An aligned request in WATCH: it is placed in the state after its judgement; then the entry to FROZEN and the notice of a
first loss follow (R42, R105). -/
theorem State.acceptJudged_eq {s : State} {req : NearRequest} {fired : List EntryNo} {owner : Option EntryNo}
    {act : Option Action} (n : SlotNo) (hfired : s.firedEntries (judgedOf req) = fired) (howner : s.ownerOf fired = owner)
    (hact : s.winning fired = act) :
    ∃ al : List EntryNo, (∀ k, k ∈ al ↔ k ∈ s.alerts ∨ (k ∈ fired ∧ (s.entry k).alert = true)) ∧
      (fired = [] → al = s.alerts) ∧ s.acceptJudged n req =
        let t := (s.judged n req fired owner act al).placeJudged n (dispOfAction act)
        let u := if act = some .freeze then t.freeze .watch else t
        if s.lossNoticed n req fired owner act then u.raise .lf else u := by
  have hnd : (fired.filter (fun k => (s.entry k).alert)).Nodup := by
    rw [← hfired]
    exact (firedEntries_nodup s _).filter _
  obtain ⟨hframe, hmem⟩ := alerted_foldl hnd s
  have hraise : s.raiseAlerts fired = (fired.filter (fun k => (s.entry k).alert)).foldl State.joinAlert s := rfl
  rw [← hraise] at hframe hmem
  refine ⟨(s.raiseAlerts fired).alerts, fun k => ?_, fun hnil => ?_, ?_⟩
  · rw [hmem, List.mem_filter]
  · rw [hnil]
    rfl
  · have hfilter : (fired.filter (fun k => (s.entry k).alert)).filter (fun k => !s.alerts.contains k) =
        fired.filter (fun k => (s.entry k).alert && !s.alerts.contains k) := by
      rw [List.filter_filter]
      exact List.filter_congr (fun k _ => Bool.and_comm _ _)
    rw [hfilter] at hframe
    unfold State.acceptJudged
    dsimp only
    rw [hfired, howner, hact]
    generalize (s.raiseAlerts fired).alerts = al at hframe
    rw [hframe, judgeEntries_watch]
    rw [State.recordJudged_eq (s := s) (a := newAccess req s.transit.arrivals (dispOfAction act) owner) req fired owner act
      (slot_takeSlot_same _ n _)]
    · simp only [State.takeSlot, State.setSlot, Vector.set_set]
      rfl
    all_goals rfl

end Sys2Proof.Machine
end

section
/-! PROOFS. Where an accepted access is placed (R7 to R9, R44, R56 to R60, R89 to R94), and what its judgement tells (R39 to
R42, R101 to R105). -/

namespace Sys2Proof.Machine

/-! ### Placement of an access just accepted -/

/-- `u` is `s` with the access `a`, not held, in the FREE slot n and nothing changed in the hold queue. -/
structure Seated (s u : State) (n : SlotNo) (a : Access) : Prop where
  free  : s.slot n = none
  slot  : ∀ m, u.slot m = if n = m then some a else s.slot m
  hold  : u.hold = s.hold
  state : a.state = .queued

theorem Seated.own {s u : State} {n : SlotNo} {a : Access} (h : Seated s u n a) : u.slot n = some a := by
  rw [h.slot, if_pos rfl]

/-- The order guard sees the same blockers before and after the access stands in its slot. -/
theorem Seated.unblocked {s u : State} {n : SlotNo} {a b : Access} (h : Seated s u n a) (haddr : b.addr = a.addr)
    (hsize : b.size = a.size) (hcls : b.cls = a.cls) : Unblocked u a ↔ Unblocked s b := by
  have hblocks : ∀ m, Blocks u m a ↔ Blocks s m b := by
    intro m
    unfold Blocks
    rw [haddr, hsize, hcls]
    refine exists_congr (fun c => ?_)
    rw [h.slot]
    split_ifs with hm
    · subst hm
      rw [h.free]
      constructor
      · rintro ⟨hc, hheld, -⟩
        rw [← Option.some.inj hc, h.state] at hheld
        cases hheld
      · rintro ⟨hc, -⟩
        cases hc
    · exact Iff.rfl
  simp only [Unblocked, h.hold, hblocks]

section
variable {u : State} {n : SlotNo} {a : Access} (ha : u.slot n = some a)
include ha

theorem State.placeForward_unblocked (h : Unblocked u a) : u.placeForward n = u.forwardSlot n := by
  rw [State.placeForward, (State.blockedAtPlacement_iff ha).2 h]
  rfl

theorem State.placeForward_blocked (h : ¬ Unblocked u a) : u.placeForward n = u.holdForOrder n .forward := by
  rw [State.placeForward, Bool.eq_true_of_not_eq_false (mt (State.blockedAtPlacement_iff ha).1 h)]
  rfl

theorem State.placeSubstitute_unblocked (h : Unblocked u a) : u.placeSubstitute n = u.carryOut n := by
  rw [State.placeSubstitute, (State.blockedAtPlacement_iff ha).2 h]
  rfl

theorem State.placeSubstitute_blocked (h : ¬ Unblocked u a) : u.placeSubstitute n = u.holdForOrder n .substitute := by
  rw [State.placeSubstitute, Bool.eq_true_of_not_eq_false (mt (State.blockedAtPlacement_iff ha).1 h)]
  rfl

/-- A hit of the record k (R91 to R93). -/
theorem State.carryOut_hit {k : RecordNo} {g : NearTag} (hk : Hits u a k) (hg : a.tag = some g) : u.carryOut n = { u with
    transit := { u.transit with slots := u.transit.slots.set n (some (answered a)) }
    near := { u.near with responses := u.near.responses ++
      [{ tag := g, reason := .ok, data := readData a.cls ((u.record k).read a.addr a.size), slot := some n }] }
    subst := u.subst.set k (afterHit (u.record k) a)
    log := logClosed u.log a.logSeq .substituted .ok (readData a.cls ((u.record k).read a.addr a.size)) } := by
  have hset : (u.setRecord k (afterHit (u.record k) a)).slot n = some a := ha
  simp only [State.carryOut, ha, (u.hitRecord_iff a k).2 hk, hitEffect_eq, hitData_eq]
  rw [State.closeAnswer_eq .substituted .ok _ hset hg]
  rfl

/-- A miss (R94). -/
theorem State.carryOut_miss (hk : ∀ k, ¬ Hits u a k) : u.carryOut n = { u with
    transit := { u.transit with slots := u.transit.slots.set n (some { a.released with state := .queued }) }
    far := { u.far with forward := u.far.forward ++ [n] }
    log := logMarked u.log a.logSeq .substMiss } := by
  have hnone : u.hitRecord a = none := by
    cases hr : u.hitRecord a with
    | none => rfl
    | some k => exact absurd ((u.hitRecord_iff a k).1 hr) (hk k)
  simp only [State.carryOut, ha, hnone]
  rw [State.markRecord_eq .substMiss ha, State.forwardSlot_eq (s := { u with log := logMarked u.log a.logSeq .substMiss }) ha]

end

/-! ### Placement outside WATCH -/

theorem seated_takeSlot {s : State} {n : SlotNo} {a : Access} (hn : s.slot n = none) (ha : a.state = .queued) :
    Seated s (s.takeSlot n a) n a := by
  refine ⟨hn, fun m => ?_, rfl, ha⟩
  have hset : (s.takeSlot n a).slot m = (s.setSlot n (some a)).slot m := rfl
  rw [hset, State.slot_setSlot]

theorem newAccess_eq (s : State) (req : NearRequest) (d : Disposition) (o : Option EntryNo) :
    newAccess req s.transit.arrivals d o = accessOf s req .queued d o := rfl

theorem takeSlot_transit (s : State) (n : SlotNo) (a : Access) : (s.takeSlot n a).transit = accepted s n a := rfl

theorem accepted_set (s : State) (n : SlotNo) (a b : Access) :
    { accepted s n a with slots := (accepted s n a).slots.set n (some b) } = accepted s n b := by
  simp only [accepted, Vector.set_set]

section
variable {s : State} {n : SlotNo} {req : NearRequest} (hal : aligned req.addr req.size = true)
include hal

theorem State.accept_bypass (hop : s.ctrl.op = .bypass) : s.accept n req = s.acceptForward n req := by
  rw [State.accept, if_pos hal, hop]

theorem State.accept_frozen (hop : s.ctrl.op = .frozen) : s.accept n req = s.acceptFrozen n req := by
  rw [State.accept, if_pos hal, hop]

theorem State.accept_watch (hop : s.ctrl.op = .watch) : s.accept n req = s.acceptJudged n req := by
  rw [State.accept, if_pos hal, hop]

end

/-- Settles O5: the order guard's check, then the tail of the forward queue or of the hold queue. -/
theorem acceptBypass : Obligations.AcceptBypass := by
  unfold Obligations.AcceptBypass
  intro s req n h hal hop
  have hp := seated_takeSlot (a := accessOf s req .queued .forward none) h.slot rfl
  have hun := hp.unblocked (b := accessOf s req .queued .forward none) rfl rfl rfl
  rw [exec_acceptance_takes h, State.accept_bypass hal hop, State.acceptForward, newAccess_eq]
  refine ⟨fun hfree => ?_, fun hblocked => ?_⟩
  · rw [State.placeForward_unblocked hp.own (hun.2 hfree), State.forwardSlot_eq hp.own, takeSlot_transit, accepted_set]
    rfl
  · rw [State.placeForward_blocked hp.own (mt hun.1 hblocked), State.holdForOrder_eq .forward hp.own, takeSlot_transit,
      accepted_set]
    rfl

/-- Settles O6: the entry to the hold queue for a decision. -/
theorem acceptFrozen : Obligations.AcceptFrozen := by
  unfold Obligations.AcceptFrozen
  intro s req n h hal hop
  have hp := seated_takeSlot (a := accessOf s req .queued .hold none) h.slot rfl
  rw [exec_acceptance_takes h, State.accept_frozen hal hop, State.acceptFrozen, newAccess_eq,
    State.holdForDecision_eq (t := req.tag) .freeze hp.own rfl, takeSlot_transit, accepted_set]
  rfl

/-! ### The state after a judged placement -/

/-- The notice of a lost record, when it is due (R105). -/
def lossNotices (b : Bool) : List Notice := if b then [.lf] else []

/-- The notice of the entry to FROZEN, when it is due. -/
def freezeNotices (act : Option Action) : List Notice := if act = some .freeze then [.fz] else []

/-- The state controller after a judgement with this winning action (R41). -/
def frozenBy (act : Option Action) (c : Ctrl) : Ctrl :=
  if act = some .freeze then { c with op := .frozen, ret := some .watch } else c

/-- What follows the placement of a judged access (R41, R42, R105). -/
theorem judged_finish (p : State) (act : Option Action) (b : Bool) :
    (let u := if act = some .freeze then p.freeze .watch else p
     if b then u.raise .lf else u) =
      { p with ctrl := frozenBy act p.ctrl, console := offerAll p (freezeNotices act ++ lossNotices b) } := by
  unfold frozenBy freezeNotices lossNotices
  by_cases hf : act = some .freeze
  · simp only [hf, if_true]
    cases b <;> rfl
  · simp only [hf, if_false]
    cases b <;> rfl

theorem seated_judged {s : State} (n : SlotNo) (req : NearRequest) (fired : List EntryNo) (owner : Option EntryNo)
    (act : Option Action) (al : List EntryNo) (hn : s.slot n = none) :
    Seated s (s.judged n req fired owner act al) n (judgedAccess s n req fired owner act) := by
  refine ⟨hn, fun m => ?_, rfl, rfl⟩
  have hset : (s.judged n req fired owner act al).slot m =
      (s.setSlot n (some (judgedAccess s n req fired owner act))).slot m := rfl
  rw [hset, State.slot_setSlot]

/-- A judged access that is taken: the state after its event. -/
theorem exec_judged {s : State} {req : NearRequest} {n : SlotNo} {fired : List EntryNo} {owner : Option EntryNo}
    {act : Option Action} (h : Takes s req n) (hal : aligned req.addr req.size = true) (hop : s.ctrl.op = .watch)
    (hfired : s.firedEntries (judgedOf req) = fired) (howner : s.ownerOf fired = owner) (hact : s.winning fired = act) :
    ∃ al : List EntryNo, (∀ k, k ∈ al ↔ k ∈ s.alerts ∨ (k ∈ fired ∧ (s.entry k).alert = true)) ∧
      (fired = [] → al = s.alerts) ∧ ∀ p, (s.judged n req fired owner act al).placeJudged n (dispOfAction act) = p →
        exec (.acceptance req) s = .next { p with
          ctrl := frozenBy act p.ctrl
          console := settle (offerAll p (freezeNotices act ++ lossNotices (s.lossNoticed n req fired owner act))) } := by
  obtain ⟨al, hmem, hnil, hacc⟩ := State.acceptJudged_eq n hfired howner hact
  refine ⟨al, hmem, hnil, fun p hp => ?_⟩
  dsimp only at hacc
  rw [hp] at hacc
  have hfinish := judged_finish p act (s.lossNoticed n req fired owner act)
  dsimp only at hfinish
  rw [hfinish] at hacc
  rw [exec_acceptance_takes h, State.accept_watch hal hop, hacc]

end Sys2Proof.Machine
end

section
/-! PROOFS. The judgement of an access in WATCH, as a whole (R30 to R44, R101 to R107, R125, R126). -/

namespace Sys2Proof.Machine

/-! ### The room in the log (R101 to R105) -/

theorem Log.make_of_room {l : Log} (h : RoomFor l) (r : Word → CaptureRecord) :
    l.make r = some (withRecord l (r (l.counter + 1))) := by
  obtain ⟨hcounter, hroom⟩ := h
  have hones : BitVec.allOnes 32 = 0xFFFFFFFF := by decide
  unfold Log.make withRecord
  rw [hones, if_neg hcounter]
  by_cases hlt : l.records.length < 64
  · rw [if_pos hlt, if_pos hlt]
    rfl
  · obtain ⟨hmode, c, cs, hc, hclosed⟩ := hroom.resolve_left hlt
    have hold : l.oldestClosed = true := by simp [Log.oldestClosed, hc, hclosed]
    rw [if_neg hlt, if_neg hlt, if_pos ⟨hmode, hold⟩]
    rfl

theorem Log.make_of_noRoom {l : Log} (h : ¬ RoomFor l) (r : Word → CaptureRecord) : l.make r = none := by
  have hones : BitVec.allOnes 32 = 0xFFFFFFFF := by decide
  unfold Log.make
  rw [hones]
  split_ifs with hcounter hlt hwrap
  · rfl
  · exact absurd ⟨hcounter, .inl hlt⟩ h
  · obtain ⟨hmode, hold⟩ := hwrap
    refine absurd ⟨hcounter, .inr ⟨hmode, ?_⟩⟩ h
    unfold Log.oldestClosed at hold
    cases hr : l.records with
    | nil => simp [hr] at hold
    | cons c cs => exact ⟨c, cs, rfl, by simpa [hr] using hold⟩
  · rfl

theorem countLost_eq (l : Log) : l.countLost = oneLost l := by rw [Log.countLost, oneLost, satInc_count]

/-! ### Winner and owner (R38) -/

theorem recordWanted_iff (a : Action) : recordWanted (some a) = true ↔ a ≠ .pass := by cases a <;> decide

theorem dispOfAction_some (a : Action) : dispOfAction (some a) = dispFor a := by cases a <;> rfl

theorem newRecord_eq (s : State) (n : SlotNo) (req : NearRequest) (fired : List EntryNo) (o : EntryNo) (a : Action) :
    newRecord s n req fired o (dispOfAction (some a)) (s.log.counter + 1) =
      recordOf s req n fired o (dispFor a) (.opened none) := by
  rw [dispOfAction_some]
  rfl

theorem lossNoticed_iff (s : State) (n : SlotNo) (req : NearRequest) (fired : List EntryNo) (o : EntryNo) (a : Action) :
    s.lossNoticed n req fired (some o) (some a) = true ↔ a ≠ .pass ∧ ¬ RoomFor s.log ∧ s.log.lost = 0 := by
  have hnone : ∀ r, (s.log.make r).isNone = true ↔ ¬ RoomFor s.log := by
    intro r
    by_cases hroom : RoomFor s.log
    · simp [Log.make_of_room hroom, hroom]
    · simp [Log.make_of_noRoom hroom, hroom]
  simp only [State.lossNoticed, State.firstLoss, Bool.and_eq_true, recordWanted_iff, hnone, beq_iff_eq]

theorem firedEntries_pairwise (s : State) (j : Judged) : (s.firedEntries j).Pairwise (fun a b => a < b) :=
  (List.pairwise_lt_finRange 16).filter _

/-- The fired entries are the only list that R39 describes. -/
theorem firedEntries_eq {s : State} {req : NearRequest} {fired : List EntryNo} (h : FiredList s req fired) :
    s.firedEntries (judgedOf req) = fired :=
  (firedEntries_pairwise s _).eq_of_mem_iff h.1 (fun k => (s.mem_firedEntries req k).trans (h.2 k).symm)

theorem firedEntries_nil {s : State} {req : NearRequest} (h : ∀ k, ¬ Fires (s.entry k) req) :
    s.firedEntries (judgedOf req) = [] :=
  List.eq_nil_iff_forall_not_mem.2 fun k hk => h k ((s.mem_firedEntries req k).1 hk)

/-! ### Placement in the state after judgement -/

section
variable {s : State} {n : SlotNo} (req : NearRequest) (fired : List EntryNo) (owner : Option EntryNo) {act : Option Action}
  (al : List EntryNo) (hn : s.slot n = none)

theorem judgedAccess_eq {d : Disposition} (hd : dispOfAction act = d) : judgedAccess s n req fired owner act =
    numbered (accessOf s req .queued d owner) (s.recorded n req fired owner act).2 := by rw [judgedAccess, hd]

theorem judged_set (b : Access) :
    { (s.judged n req fired owner act al).transit with
      slots := (s.judged n req fired owner act al).transit.slots.set n (some b) } = accepted s n b := accepted_set s n _ b

include hn

theorem judged_unblocked {d : Disposition} (hd : dispOfAction act = d) :
    Unblocked (s.judged n req fired owner act al) (judgedAccess s n req fired owner act) ↔
      Unblocked s (accessOf s req .queued d owner) := by
  rw [← hd]
  exact (seated_judged n req fired owner act al hn).unblocked rfl rfl rfl

theorem placed_forward (hd : dispOfAction act = .forward) (hfree : Unblocked s (accessOf s req .queued .forward owner)) :
    (s.judged n req fired owner act al).placeJudged n (dispOfAction act) = { s.judged n req fired owner act al with
      far := { s.far with forward := s.far.forward ++ [n] } } := by
  have hown := (seated_judged n req fired owner act al hn).own
  rw [hd]
  change (s.judged n req fired owner act al).placeForward n = _
  rw [State.placeForward_unblocked hown ((judged_unblocked req fired owner al hn hd).2 hfree), State.forwardSlot_eq hown,
    judged_set]
  rfl

theorem holdForOrder_judged (p : PendAction) : (s.judged n req fired owner act al).holdForOrder n p =
    { s.judged n req fired owner act al with
      transit := accepted s n { judgedAccess s n req fired owner act with
        state := .held, holdReason := some .order, holdTimer := none, pendAction := some p }
      hold := s.hold ++ [n] } := by
  rw [State.holdForOrder_eq p (seated_judged n req fired owner act al hn).own, judged_set]
  rfl

theorem placed_forward_blocked (hd : dispOfAction act = .forward)
    (hblocked : ¬ Unblocked s (accessOf s req .queued .forward owner)) :
    (s.judged n req fired owner act al).placeJudged n (dispOfAction act) =
      (s.judged n req fired owner act al).holdForOrder n .forward := by
  have hown := (seated_judged n req fired owner act al hn).own
  rw [hd]
  exact State.placeForward_blocked hown (mt (judged_unblocked req fired owner al hn hd).1 hblocked)

theorem placed_subst_blocked (hd : dispOfAction act = .substitute)
    (hblocked : ¬ Unblocked s (accessOf s req .queued .substitute owner)) :
    (s.judged n req fired owner act al).placeJudged n (dispOfAction act) =
      (s.judged n req fired owner act al).holdForOrder n .substitute := by
  have hown := (seated_judged n req fired owner act al hn).own
  rw [hd]
  exact State.placeSubstitute_blocked hown (mt (judged_unblocked req fired owner al hn hd).1 hblocked)

theorem placed_subst (hd : dispOfAction act = .substitute) (hfree : Unblocked s (accessOf s req .queued .substitute owner)) :
    (s.judged n req fired owner act al).placeJudged n (dispOfAction act) = (s.judged n req fired owner act al).carryOut n := by
  have hown := (seated_judged n req fired owner act al hn).own
  rw [hd]
  exact State.placeSubstitute_unblocked hown ((judged_unblocked req fired owner al hn hd).2 hfree)

theorem placed_hold (hd : dispOfAction act = .hold) :
    (s.judged n req fired owner act al).placeJudged n (dispOfAction act) = { s.judged n req fired owner act al with
      transit := accepted s n { judgedAccess s n req fired owner act with
        state := .held, holdReason := some .watch, holdTimer := loaded s.ctrl.params.holdLimit, pendAction := none }
      hold := s.hold ++ [n]
      console := offerNotice s.ctrl.params.quiet (.hd n req.tag owner req.addr)
        (s.judged n req fired owner act al).console } := by
  have hown := (seated_judged n req fired owner act al hn).own
  rw [hd]
  change (s.judged n req fired owner act al).holdForDecision n .watch = _
  rw [State.holdForDecision_eq (t := req.tag) .watch hown rfl, judged_set]
  rfl

end

/-! ### Counting, firing and arming (R32 to R34) -/

theorem placeJudged_watch (s : State) (n : SlotNo) (d : Disposition) : (s.placeJudged n d).watch = s.watch := by
  cases d with
  | forward => exact s.placeForward_watch n
  | substitute => exact s.placeSubstitute_watch n
  | hold => exact s.holdForDecision_watch n .watch
  | align => rfl

theorem placeJudged_alerts (s : State) (n : SlotNo) (d : Disposition) : (s.placeJudged n d).alerts = s.alerts := by
  cases d with
  | forward => exact s.placeForward_alerts n
  | substitute => exact s.placeSubstitute_alerts n
  | hold => exact s.holdForDecision_alerts n .watch
  | align => rfl

/-- Settles O7: one entry at a time (`judgedEntry_cases`). -/
theorem judgementCounts : Obligations.JudgementCounts := by
  unfold Obligations.JudgementCounts
  intro s req n h hal hop
  obtain ⟨al, -, -, hexec⟩ := exec_judged h hal hop rfl rfl rfl
  refine ⟨_, hexec _ rfl, fun k => ?_⟩
  generalize hp : (s.judged n req (s.firedEntries (judgedOf req)) (s.ownerOf (s.firedEntries (judgedOf req)))
    (s.winning (s.firedEntries (judgedOf req))) al).placeJudged n
      (dispOfAction (s.winning (s.firedEntries (judgedOf req)))) = p
  have hentry : p.entry k = judgedEntry (s.entry k) (judgedOf req) (s.firedEntries (judgedOf req)) := by
    have hwatch : p.watch = (s.judgeEntries (judgedOf req)).watch := by
      rw [← hp]
      exact placeJudged_watch _ n _
    rw [← s.entry_judgeEntries (judgedOf req) k, State.entry, hwatch]
    rfl
  obtain ⟨hcounts, hfires, harmed, hkept⟩ := judgedEntry_cases s req (s.entry k)
  have ht : ∀ (c : Ctrl) (d : Console), ({ p with ctrl := c, console := d } : State).entry k =
      judgedEntry (s.entry k) (judgedOf req) (s.firedEntries (judgedOf req)) := fun c d => hentry
  simp only [ht]
  exact ⟨hcounts, fun hf ho => (hfires hf).trans (fired_once ho), fun hf ho => (hfires hf).trans (fired_again ho), harmed,
    hkept⟩

/-! ### Forwarding (R9, R39) -/

theorem frozenBy_ne {act : Option Action} (h : act ≠ some .freeze) (c : Ctrl) : frozenBy act c = c := if_neg h

/-- The winner and the owner of an access that is forwarded. -/
theorem forward_judgement {s : State} {req : NearRequest} {o : Option EntryNo} {note : Bool}
    (h : (o = none ∧ note = false ∧ ∀ k, ¬ Fires (s.entry k) req) ∨
      ∃ e, o = some e ∧ Owns s req e (if note then .note else .pass)) :
    ∃ act, s.winning (s.firedEntries (judgedOf req)) = act ∧ s.ownerOf (s.firedEntries (judgedOf req)) = o ∧
      dispOfAction act = .forward ∧ act ≠ some .freeze ∧ (note = false → recordWanted act = false) ∧
      (o = none → act = none ∧ s.firedEntries (judgedOf req) = []) := by
  rcases h with ⟨rfl, rfl, hnone⟩ | ⟨e, rfl, howns⟩
  · have hnil := firedEntries_nil hnone
    rw [hnil]
    exact ⟨none, rfl, rfl, rfl, by decide, fun _ => rfl, fun _ => ⟨rfl, rfl⟩⟩
  · obtain ⟨hwin, howner⟩ := State.winning_of_owns howns
    refine ⟨_, hwin, howner, ?_, ?_, ?_, (by intro hc; cases hc)⟩
    · cases note <;> rfl
    · cases note <;> decide
    · rintro rfl
      rfl

/-- Settles O8: the placement of a forwarded access, blocked or not. -/
theorem judgedForward : Obligations.JudgedForward := by
  unfold Obligations.JudgedForward
  intro s req n o note h hal hop hcase
  obtain ⟨act, hact, howner, hd, hne, hwanted, hnone⟩ := forward_judgement hcase
  obtain ⟨al, -, hnil, hexec⟩ := exec_judged h hal hop rfl howner hact
  generalize s.firedEntries (judgedOf req) = fired at hact howner hnone hnil hexec
  refine ⟨_, (s.recorded n req fired o act).2, hexec _ rfl, ?_⟩
  generalize hp : (s.judged n req fired o act al).placeJudged n (dispOfAction act) = p
  rw [hd] at hp
  have hpf : (s.judged n req fired o act al).placeForward n = p := hp
  have hlog : p.log = (s.recorded n req fired o act).1 := by
    rw [← hpf]
    exact State.placeForward_log _ n
  have hconsole : p.console = (s.judged n req fired o act al).console := by
    rw [← hpf]
    exact State.placeForward_console _ n
  have halerts : p.alerts = al := by
    rw [← hpf]
    exact State.placeForward_alerts _ n
  refine ⟨?_, fun hnote => ?_, fun ho => ?_, fun hfree => ?_, fun hblocked => ?_⟩
  · simp only [hlog]
    exact s.recorded_seq n req fired o act
  · simp only [hlog, s.recorded_unwanted n req fired (hwanted hnote)]
  · obtain ⟨rfl, rfl⟩ := hnone ho
    subst ho
    refine ⟨halerts.trans (hnil rfl), ?_⟩
    change settle (offerAll p []) = _
    exact congrArg settle hconsole
  · have hplaced := placed_forward req fired o al h.slot hd hfree
    rw [hd, hp] at hplaced
    rw [hplaced, frozenBy_ne hne]
    simp only [State.judged, judgedAccess_eq req fired o hd]
    rfl
  · have hplaced := placed_forward_blocked req fired o al h.slot hd hblocked
    rw [hd, hp, holdForOrder_judged req fired o al h.slot, judgedAccess_eq req fired o hd] at hplaced
    rw [hplaced, frozenBy_ne hne]
    rfl

/-! ### Holding (R41, R57) -/

/-- Settles O9: the entry to the hold queue, and to FROZEN. -/
theorem judgedHold : Obligations.JudgedHold := by
  unfold Obligations.JudgedHold
  intro s req n o a h hal hop howns ha
  obtain ⟨hact, howner⟩ := State.winning_of_owns howns
  have hd : dispOfAction (some a) = .hold := by rcases ha with rfl | rfl <;> rfl
  obtain ⟨al, -, -, hexec⟩ := exec_judged h hal hop rfl howner hact
  generalize s.firedEntries (judgedOf req) = fired at hact howner hexec
  refine ⟨_, (s.recorded n req fired (some o) (some a)).2, hexec _ (placed_hold req fired (some o) al h.slot hd), ?_, ?_⟩
  · exact s.recorded_seq n req fired (some o) (some a)
  · have hctrl : frozenBy (some a) s.ctrl =
        if a = .freeze then { s.ctrl with op := .frozen, ret := some .watch } else s.ctrl := by
      simp [frozenBy]
    rw [judgedAccess_eq req fired (some o) hd, ← hctrl]
    rfl

/-! ### Substitution (R44, R88 to R94) -/

theorem covers_iff (r : SubstRecord) (a : Word) (z : Size) : r.covers a z = true ↔
    r.addr.toNat ≤ a.toNat ∧ a.toNat + sizeBytes z ≤ r.addr.toNat + sizeBytes r.size := by
  simp [SubstRecord.covers]

theorem maskData_maskData (z : Size) (d : Data) : maskData z (maskData z d) = maskData z d := by
  apply BitVec.eq_of_getLsbD_eq
  intro i hi
  simp only [getLsbD_maskData]
  cases decide (i < 8 * sizeBytes z) <;> rfl

/-- A hit by a request's access (R91 to R93). -/
theorem afterHit_accessOf (r : SubstRecord) (s : State) (req : NearRequest) (d : Disposition) (o : Option EntryNo)
    (q : Option Word) : afterHit r (numbered (accessOf s req .queued d o) q) =
      { (if req.cls = .store then r.write req.addr req.size req.lanes else r) with
        uses := if r.uses = 0xFFFF then 0xFFFF else r.uses + 1 } := by
  have hwrite : r.write req.addr req.size (maskData req.size req.lanes) = r.write req.addr req.size req.lanes := by
    simp only [SubstRecord.write, maskData_maskData]
  unfold afterHit
  by_cases hc : req.cls = .store
  · have hdata : (numbered (accessOf s req .queued d o) q).data = some (maskData req.size req.lanes) := by
      simp [numbered, accessOf, requestData, hc]
    rw [if_pos hc, if_pos (show (numbered (accessOf s req .queued d o) q).cls = .store from hc), hdata, Option.getD_some]
    exact congrArg (fun x : SubstRecord => { x with uses := if r.uses = 0xFFFF then 0xFFFF else r.uses + 1 }) hwrite
  · rw [if_neg hc, if_neg (show ¬ (numbered (accessOf s req .queued d o) q).cls = .store from hc)]

section
variable {s : State} {req : NearRequest} {n : SlotNo} {fired : List EntryNo} {o : EntryNo} {act : Option Action}
  {al : List EntryNo} {k : RecordNo} (haction : (s.entry o).action = some .subst) (hk : (s.entry o).record = some k)
include haction hk

/-- A judged access hits the record that its owner names, if it is valid and covers the access (R44, R89). -/
theorem hits_judged_iff (k' : RecordNo) :
    Hits (s.judged n req fired (some o) act al) (judgedAccess s n req fired (some o) act) k' ↔
      k' = k ∧ (s.record k).valid = true ∧ (s.record k).covers req.addr req.size = true := by
  have hentry : (s.judged n req fired (some o) act al).entry o =
      judgedEntry (s.entry o) (judgedOf req) (s.firedEntries (judgedOf req)) := s.entry_judgeEntries (judgedOf req) o
  constructor
  · rintro ⟨o', ho, -, hrec, hvalid, hlow, hhigh⟩
    obtain rfl : o = o' := Option.some.inj ho
    rw [hentry, judgedEntry_record, hk] at hrec
    obtain rfl := Option.some.inj hrec
    exact ⟨rfl, hvalid, (covers_iff _ _ _).2 ⟨hlow, hhigh⟩⟩
  · rintro ⟨rfl, hvalid, hcovers⟩
    obtain ⟨hlow, hhigh⟩ := (covers_iff _ _ _).1 hcovers
    exact ⟨o, rfl, by rw [hentry, judgedEntry_action, haction], by rw [hentry, judgedEntry_record, hk], hvalid, hlow, hhigh⟩

end

section
variable {s : State} {req : NearRequest} {n : SlotNo} (fired : List EntryNo) {o : EntryNo} (al : List EntryNo)
  {k : RecordNo} (hn : s.slot n = none) (haction : (s.entry o).action = some .subst) (hk : (s.entry o).record = some k)
  (hfree : Unblocked s (accessOf s req .queued .substitute (some o)))
include hn haction hk hfree

/-- A substitution that hits its record (R91 to R93). -/
theorem placed_hit (hvalid : (s.record k).valid = true) (hcovers : (s.record k).covers req.addr req.size = true) :
    (s.judged n req fired (some o) (some .subst) al).placeJudged n .substitute =
      { s.judged n req fired (some o) (some .subst) al with
        transit := accepted s n (accessOf s req .answering .substitute (some o))
        near := { s.near with responses := s.near.responses ++
          [{ tag := req.tag, reason := .ok, data := readData req.cls ((s.record k).read req.addr req.size), slot := some n }] }
        subst := s.subst.set k { (if req.cls = .store then (s.record k).write req.addr req.size req.lanes
            else s.record k) with uses := if (s.record k).uses = 0xFFFF then 0xFFFF else (s.record k).uses + 1 }
        log := logClosed (s.recorded n req fired (some o) (some .subst)).1 (s.recorded n req fired (some o) (some .subst)).2
          .substituted .ok (readData req.cls ((s.record k).read req.addr req.size)) } := by
  have hown := (seated_judged n req fired (some o) (some .subst) al hn).own
  have hits := (hits_judged_iff (n := n) (fired := fired) (act := some .subst) (al := al) haction hk k).2
    ⟨rfl, hvalid, hcovers⟩
  have hplaced := placed_subst req fired (some o) al (act := some .subst) hn rfl hfree
  rw [← afterHit_accessOf (s.record k) s req .substitute (some o) (s.recorded n req fired (some o) (some .subst)).2]
  refine hplaced.trans ?_
  rw [State.carryOut_hit hown hits (g := req.tag) rfl, judged_set]
  rfl

/-- A substitution that misses its record (R94). -/
theorem placed_miss (hmiss : ¬ ((s.record k).valid = true ∧ (s.record k).covers req.addr req.size = true)) :
    (s.judged n req fired (some o) (some .subst) al).placeJudged n .substitute =
      { s.judged n req fired (some o) (some .subst) al with
        far := { s.far with forward := s.far.forward ++ [n] }
        log := logMarked (s.recorded n req fired (some o) (some .subst)).1 (s.recorded n req fired (some o) (some .subst)).2
          .substMiss } := by
  have hown := (seated_judged n req fired (some o) (some .subst) al hn).own
  have hno : ∀ k', ¬ Hits (s.judged n req fired (some o) (some .subst) al)
      (judgedAccess s n req fired (some o) (some .subst)) k' := fun k' hc =>
    hmiss ((hits_judged_iff haction hk k').1 hc).2
  have hplaced := placed_subst req fired (some o) al (act := some .subst) hn rfl hfree
  refine hplaced.trans ?_
  rw [State.carryOut_miss hown hno, judged_set]
  rfl

end

theorem logClosed_counter (l : Log) (q : Option Word) (o : RecordOutcome) (r : Reason) (d : Option Data) :
    (logClosed l q o r d).counter = l.counter := by cases q <;> rfl

theorem logMarked_counter (l : Log) (q : Option Word) (m : PathMark) : (logMarked l q m).counter = l.counter := by
  cases q <;> rfl

/-- Settles O10: blocked, a hit, or a miss. -/
theorem judgedSubst : Obligations.JudgedSubst := by
  unfold Obligations.JudgedSubst
  intro s req n o k h hal hop howns hk
  obtain ⟨hact, howner⟩ := State.winning_of_owns howns
  obtain ⟨al, -, -, hexec⟩ := exec_judged h hal hop rfl howner hact
  generalize s.firedEntries (judgedOf req) = fired at hact howner hexec
  have hseq := s.recorded_seq n req fired (some o) (some .subst)
  by_cases hfree : Unblocked s (accessOf s req .queued .substitute (some o))
  · by_cases hhit : (s.record k).valid = true ∧ (s.record k).covers req.addr req.size = true
    · obtain ⟨hvalid, hcovers⟩ := hhit
      refine ⟨_, (s.recorded n req fired (some o) (some .subst)).2,
        hexec _ (placed_hit fired al h.slot howns.action hk hfree hvalid hcovers), ?_, fun hc => absurd hfree hc,
        fun _ _ _ => rfl, fun _ hmiss => ?_⟩
      · simp only [logClosed_counter]
        exact hseq
      · rw [hvalid, hcovers] at hmiss
        simp at hmiss
    · refine ⟨_, (s.recorded n req fired (some o) (some .subst)).2,
        hexec _ (placed_miss fired al h.slot howns.action hk hfree hhit), ?_, fun hc => absurd hfree hc,
        fun _ hvalid hcovers => absurd ⟨hvalid, hcovers⟩ hhit, fun _ _ => rfl⟩
      simp only [logMarked_counter]
      exact hseq
  · have hplaced := placed_subst_blocked req fired (some o) al (act := some .subst) h.slot rfl hfree
    rw [holdForOrder_judged req fired (some o) al h.slot] at hplaced
    exact ⟨_, (s.recorded n req fired (some o) (some .subst)).2, hexec _ hplaced, hseq, fun _ => rfl,
      fun hc => absurd hc hfree, fun hc => absurd hc hfree⟩

/-! ### The capture record (R101 to R107) -/

theorem mapped_withRecord {l : Log} {c : CaptureRecord} (hseq : ∀ x ∈ l.records, x.seq ≤ l.counter)
    (hmax : l.counter ≠ 0xFFFFFFFF) (f : CaptureRecord → CaptureRecord) :
    (withRecord l c).records.map (fun x => if x.seq = l.counter + 1 then f x else x) =
      (if l.records.length < 64 then l.records else l.records.tail) ++ [if c.seq = l.counter + 1 then f c else c] := by
  have hnext : l.counter.toNat + 1 = (l.counter + 1).toNat := by
    have hlt := l.counter.isLt
    have hne : l.counter.toNat ≠ 4294967295 := fun hc => hmax (BitVec.eq_of_toNat_eq hc)
    have hone : (1 : Word).toNat = 1 := rfl
    rw [BitVec.toNat_add, hone]
    omega
  have hkeep : ∀ xs : List CaptureRecord, (∀ x ∈ xs, x ∈ l.records) →
      xs.map (fun x => if x.seq = l.counter + 1 then f x else x) = xs := by
    intro xs hxs
    refine (List.map_congr_left (fun x hx => ?_)).trans (List.map_id xs)
    have hle : x.seq.toNat ≤ l.counter.toNat := hseq x (hxs x hx)
    refine if_neg (fun hc => ?_)
    have := congrArg BitVec.toNat hc
    omega
  rw [withRecord, List.map_append, List.map_singleton]
  congr 1
  split_ifs
  · exact hkeep _ (fun x hx => hx)
  · exact hkeep _ (fun x hx => List.mem_of_mem_tail hx)

section
variable {s : State} {n : SlotNo} {req : NearRequest} {fired : List EntryNo} {o : EntryNo} {a : Action} (ha : a ≠ .pass)
include ha

theorem recorded_room (hroom : RoomFor s.log) : s.recorded n req fired (some o) (some a) =
    (withRecord s.log (recordOf s req n fired o (dispFor a) (.opened none)), some (s.log.counter + 1)) := by
  have hmake := Log.make_of_room hroom (newRecord s n req fired o (dispOfAction (some a)))
  rw [newRecord_eq] at hmake
  exact s.recorded_made n req fired ((recordWanted_iff a).2 ha) hmake

theorem recorded_noRoom (hroom : ¬ RoomFor s.log) :
    s.recorded n req fired (some o) (some a) = (oneLost s.log, none) := by
  rw [← countLost_eq]
  exact s.recorded_lost n req fired ((recordWanted_iff a).2 ha) (Log.make_of_noRoom hroom _)

end

/-- A placement that carries out no substitution leaves the log as the judgement made it. -/
theorem placed_log {s : State} {n : SlotNo} {req : NearRequest} {fired : List EntryNo} {o : EntryNo} {a : Action}
    {al : List EntryNo} (hn : s.slot n = none)
    (h : a ≠ .subst ∨ ¬ Unblocked s (accessOf s req .queued .substitute (some o))) :
    ((s.judged n req fired (some o) (some a) al).placeJudged n (dispOfAction (some a))).log =
      (s.recorded n req fired (some o) (some a)).1 := by
  cases a with
  | pass => exact State.placeForward_log _ n
  | note => exact State.placeForward_log _ n
  | hold => exact State.holdForDecision_log _ n .watch
  | freeze => exact State.holdForDecision_log _ n .watch
  | subst =>
    rcases h with h | h
    · exact absurd rfl h
    · rw [placed_subst_blocked req fired (some o) al hn rfl h]
      exact State.holdForOrder_log _ n .substitute

/-- The log of a judged access that holds no record is left alone by its placement. -/
theorem carryOut_log_unnumbered {u : State} {n : SlotNo} {a : Access} {g : NearTag} (ha : u.slot n = some a)
    (hg : a.tag = some g) (hnone : a.logSeq = none) : (u.carryOut n).log = u.log := by
  by_cases hits : ∃ k, Hits u a k
  · obtain ⟨k, hk⟩ := hits
    rw [State.carryOut_hit ha hk hg, hnone]
    rfl
  · rw [State.carryOut_miss ha (fun k hk => hits ⟨k, hk⟩), hnone]
    rfl

theorem placed_log_noRoom {s : State} {n : SlotNo} {req : NearRequest} {fired : List EntryNo} {o : EntryNo} {a : Action}
    {al : List EntryNo} (hn : s.slot n = none) (ha : a ≠ .pass) (hroom : ¬ RoomFor s.log) :
    ((s.judged n req fired (some o) (some a) al).placeJudged n (dispOfAction (some a))).log = oneLost s.log := by
  have hlost := recorded_noRoom (n := n) (req := req) (fired := fired) (o := o) ha hroom
  by_cases hkeep : a ≠ .subst ∨ ¬ Unblocked s (accessOf s req .queued .substitute (some o))
  · rw [placed_log hn hkeep, hlost]
  · obtain ⟨rfl, hfree⟩ : a = .subst ∧ Unblocked s (accessOf s req .queued .substitute (some o)) := by
      simpa [not_or] using hkeep
    have hown := (seated_judged n req fired (some o) (some .subst) al hn).own
    rw [placed_subst req fired (some o) al (act := some .subst) hn rfl hfree,
      carryOut_log_unnumbered (g := req.tag) hown rfl (congrArg Prod.snd hlost)]
    exact congrArg Prod.fst hlost

theorem logClosed_made {s : State} {r : CaptureRecord} (hr : r.seq = s.log.counter + 1)
    (hseq : ∀ x ∈ s.log.records, x.seq ≤ s.log.counter) (hroom : RoomFor s.log) (oc : RecordOutcome) (rs : Reason)
    (d : Option Data) : logClosed (withRecord s.log r) (some (s.log.counter + 1)) oc rs d =
      withRecord s.log (r.close oc (some rs) d) := by
  have hmap := mapped_withRecord (c := r) hseq hroom.1 (fun c => c.close oc (some rs) d)
  rw [if_pos hr] at hmap
  rw [logClosed, hmap]
  rfl

theorem logMarked_made {s : State} {r : CaptureRecord} (hr : r.seq = s.log.counter + 1)
    (hseq : ∀ x ∈ s.log.records, x.seq ≤ s.log.counter) (hroom : RoomFor s.log) (m : PathMark) :
    logMarked (withRecord s.log r) (some (s.log.counter + 1)) m = withRecord s.log (r.mark m) := by
  have hmap := mapped_withRecord (c := r) hseq hroom.1 (fun c => c.mark m)
  rw [if_pos hr] at hmap
  rw [logMarked, hmap]
  rfl

/-- Settles O11: the record that the judgement makes or loses, and what a substitution then does to it. -/
theorem judgementRecord : Obligations.JudgementRecord := by
  unfold Obligations.JudgementRecord
  intro s req n o a fired h hal hop howns hpass hfired hcounted
  obtain ⟨hact, howner⟩ := State.winning_of_owns howns
  rw [firedEntries_eq hfired] at hact howner
  obtain ⟨al, -, -, hexec⟩ := exec_judged h hal hop (firedEntries_eq hfired) howner hact
  refine ⟨_, hexec _ rfl, fun hroom => placed_log_noRoom h.slot hpass hroom, fun hroom hkeep => ?_,
    fun hroom hsub hfree k hk => ⟨fun hhit => ?_, fun hmiss => ?_⟩⟩
  · change ((s.judged n req fired (some o) (some a) al).placeJudged n (dispOfAction (some a))).log = _
    rw [placed_log h.slot hkeep, recorded_room hpass hroom]
  · obtain ⟨hvalid, hcovers⟩ := hhit
    subst hsub
    change ((s.judged n req fired (some o) (some .subst) al).placeJudged n .substitute).log = _
    rw [placed_hit fired al h.slot howns.action hk hfree hvalid hcovers, recorded_room hpass hroom]
    exact logClosed_made rfl hcounted hroom _ _ _
  · subst hsub
    change ((s.judged n req fired (some o) (some .subst) al).placeJudged n .substitute).log = _
    rw [placed_miss fired al h.slot howns.action hk hfree hmiss, recorded_room hpass hroom]
    exact logMarked_made rfl hcounted hroom _

/-! ### Alerts and notices (R42, R105, R126) -/

/-- The notice of the entry to the hold queue, when it is due (R57). -/
def holdNotices (req : NearRequest) (n : SlotNo) (o : EntryNo) (a : Action) : List Notice :=
  if a = .hold ∨ a = .freeze then [.hd n req.tag (some o) req.addr] else []

/-- What the placement of a judged access tells. -/
theorem placed_console {s : State} {n : SlotNo} {req : NearRequest} {fired : List EntryNo} {o : EntryNo} {a : Action}
    {al : List EntryNo} (hn : s.slot n = none) :
    ((s.judged n req fired (some o) (some a) al).placeJudged n (dispOfAction (some a))).console =
      offerAll (s.judged n req fired (some o) (some a) al) (holdNotices req n o a) := by
  cases a with
  | pass => exact State.placeForward_console _ n
  | note => exact State.placeForward_console _ n
  | subst => exact State.placeSubstitute_console _ n
  | hold => rw [placed_hold req fired (some o) al (act := some .hold) hn rfl]; rfl
  | freeze => rw [placed_hold req fired (some o) al (act := some .freeze) hn rfl]; rfl

theorem placeJudged_ctrl {s : State} {n : SlotNo} {d : Disposition} : (s.placeJudged n d).ctrl = s.ctrl := by
  cases d with
  | forward => exact s.placeForward_ctrl n
  | substitute => exact s.placeSubstitute_ctrl n
  | hold => exact s.holdForDecision_ctrl n .watch
  | align => rfl

theorem offerAll_of_ctrl {s t : State} (hctrl : t.ctrl = s.ctrl) (ns ms : List Notice)
    (hconsole : t.console = offerAll s ns) : offerAll t ms = offerAll s (ns ++ ms) := by
  rw [offerAll_append]
  unfold offerAll at *
  rw [hctrl, hconsole]

/-- Settles O12: alerts first, then the entry to the hold queue, the freeze and the loss. -/
theorem judgementNotices : Obligations.JudgementNotices := by
  unfold Obligations.JudgementNotices
  intro s req n o a fired h hal hop howns hfired
  obtain ⟨hact, howner⟩ := State.winning_of_owns howns
  rw [firedEntries_eq hfired] at hact howner
  obtain ⟨al, hmem, -, hexec⟩ := exec_judged h hal hop (firedEntries_eq hfired) howner hact
  have hlost := lossNoticed_iff s n req fired o a
  refine ⟨_, hexec _ rfl, fun k => ?_, lossNotices (s.lossNoticed n req fired (some o) (some a)), fun hl => ?_, fun hl => ?_,
    ?_⟩
  · have halerts := placeJudged_alerts (s.judged n req fired (some o) (some a) al) n (dispOfAction (some a))
    rw [← hfired.2 k, ← hmem]
    exact iff_of_eq (congrArg (k ∈ ·) halerts)
  · rw [hlost.2 hl]
    rfl
  · rw [Bool.eq_false_of_not_eq_true (mt hlost.1 hl)]
    rfl
  · have hfreeze : freezeNotices (some a) = if a = .freeze then [.fz] else [] := by simp [freezeNotices]
    have hplaced := placed_console (fired := fired) (o := o) (a := a) (al := al) (req := req) h.slot
    have hall := (offerAll_of_ctrl (s := s.judged n req fired (some o) (some a) al) placeJudged_ctrl
      (holdNotices req n o a) (freezeNotices (some a) ++ lossNotices (s.lossNoticed n req fired (some o) (some a)))
      hplaced).trans
      (offerAll_of_ctrl (t := s.judged n req fired (some o) (some a) al) (s := s) rfl
        ((fired.filter (fun k => (s.entry k).alert && !s.alerts.contains k)).map Notice.al) _ rfl)
    rw [consoleAfter, ← hfreeze]
    refine congrArg settle (hall.trans (congrArg (offerAll s) ?_))
    simp only [holdNotices, List.append_assoc]

end Sys2Proof.Machine
end

section
/-! PROOFS. The text of a line and its service (R158 to R167). -/

namespace Sys2Proof.Machine

/-! ### Tokens and verbs (R164, R165) -/

theorem verbText_injective {v w : Verb} (h : verbText v = verbText w) : v = w := by
  revert v w
  have hall : ∀ v ∈ allVerbs, ∀ w ∈ allVerbs, verbText v = verbText w → v = w := by decide
  have hmem : ∀ v : Verb, v ∈ allVerbs := fun v => by cases v <;> decide
  exact fun v w h => hall v (hmem v) w (hmem w) h

theorem mem_allVerbs (v : Verb) : v ∈ allVerbs := by cases v <;> decide

theorem verbOf_eq_some_iff (t : Token) (v : Verb) : verbOf t = some v ↔ t.map upper = verbText v := by
  constructor
  · intro h
    exact (beq_iff_eq.1 (List.find?_some (p := fun v => verbText v == t.map upper) h)).symm
  · intro h
    cases hv : verbOf t with
    | none =>
      have hno := List.find?_eq_none.1 hv v (mem_allVerbs v)
      exact absurd (beq_iff_eq.2 h.symm) hno
    | some w =>
      have hw : verbText w = t.map upper := 
        beq_iff_eq.1 (List.find?_some (p := fun v => verbText v == t.map upper) hv)
      rw [verbText_injective (hw.trans h)]

theorem verbOf_eq_none_iff (t : Token) : verbOf t = none ↔ ∀ v : Verb, t.map upper ≠ verbText v := by
  simp only [← verbOf_eq_some_iff, Option.eq_none_iff_forall_ne_some, ne_eq]

theorem tokensFrom_ne_nil (t : Text) {cur : Token} (h : cur ≠ []) : tokensFrom t cur ≠ [] := by
  induction t generalizing cur with
  | nil => simp [tokensFrom, h]
  | cons c cs ih =>
    rw [tokensFrom]
    by_cases hc : c = ' '
    · simp [hc, h]
    · rw [if_neg hc]
      exact ih (by simp)

theorem tokens_eq_nil_iff (t : Text) : tokens t = [] ↔ ∀ c ∈ t, c = ' ' := by
  unfold tokens
  induction t with
  | nil => simp [tokensFrom]
  | cons c cs ih =>
    rw [tokensFrom, List.forall_mem_cons]
    by_cases hc : c = ' '
    · simp [hc, ih]
    · simp [hc, tokensFrom_ne_nil]

/-- A token that a line can hold, character by character. -/
theorem tokenOk_iff (t : Token) : tokenOk t = true ↔ t ≠ [] ∧ ∀ c ∈ t, 0x20 < c.toNat ∧ c.toNat ≤ 0x7E := by
  simp [tokenOk, tokenChar, List.isEmpty_eq_false_iff]

theorem tokensFrom_append {t : Text} (ht : ∀ c ∈ t, c ≠ ' ') (rest : Text) (cur : Token) :
    tokensFrom (t ++ rest) cur = tokensFrom rest (cur ++ t) := by
  induction t generalizing cur with
  | nil => simp
  | cons c cs ih =>
    obtain ⟨hc, hcs⟩ := List.forall_mem_cons.1 ht
    rw [List.cons_append, tokensFrom, if_neg hc, ih hcs, List.append_assoc, List.singleton_append]

theorem not_space_of_tokenOk {t : Token} (h : tokenOk t = true) : ∀ c ∈ t, c ≠ ' ' := by
  rintro c hc rfl
  have hlow := (((tokenOk_iff t).1 h).2 ' ' hc).1
  revert hlow
  decide

theorem tokensFrom_spelled {t : Token} (hne : t ≠ []) (ht : ∀ c ∈ t, c ≠ ' ') {ops : List Token}
    (hops : ∀ x ∈ ops, tokenOk x = true) :
    tokensFrom (t ++ (ops.map (fun x => ' ' :: x)).flatten) [] = t :: ops := by
  induction ops generalizing t with
  | nil =>
    rw [tokensFrom_append ht]
    simp [tokensFrom, hne]
  | cons x xs ih =>
    obtain ⟨hx, hxs⟩ := List.forall_mem_cons.1 hops
    rw [tokensFrom_append ht, List.map_cons, List.flatten_cons, List.cons_append, tokensFrom, if_pos rfl,
      List.nil_append, if_neg (by simpa using hne), ih ((tokenOk_iff x).1 hx).1 (not_space_of_tokenOk hx) hxs]

theorem verbText_ok (v : Verb) : tokenOk (verbText v) = true ∧ (verbText v).map upper = verbText v := by
  cases v <;> decide

/-- The tokens of the line that a verb's row spells. -/
theorem tokens_lineText (v : Verb) {ops : List Token} (h : operandsOk ops = true) :
    tokens (lineText v ops) = verbText v :: ops := by
  obtain ⟨hops, -⟩ := Bool.and_eq_true_iff.1 h
  have hv := (verbText_ok v).1
  exact tokensFrom_spelled ((tokenOk_iff _).1 hv).1 (not_space_of_tokenOk hv) (List.all_eq_true.1 hops)

/-! ### Tests 3 to 7 (R163) -/

theorem interpret_marked (src : Source) (m : Mark) (t : Text) (s : State) :
    interpret src (some m) t s = (s, .refused (markCode m)) := rfl

theorem interpret_spaces (src : Source) {t : Text} (h : tokens t = []) (s : State) :
    interpret src none t s = (s, answerBare) := by
  simp only [interpret, h]

theorem interpret_noVerb (src : Source) {t : Text} {x : Token} {ws : List Token} (h : tokens t = x :: ws)
    (hx : ∀ v : Verb, x.map upper ≠ verbText v) (s : State) : interpret src none t s = (s, .refused .uv) := by
  simp only [interpret, h, (verbOf_eq_none_iff x).2 hx]

theorem interpret_verb (src : Source) {t : Text} {x : Token} {ws : List Token} {v : Verb} (h : tokens t = x :: ws)
    (hx : x.map upper = verbText v) (s : State) : interpret src none t s = runVerb v src ws s := by
  simp only [interpret, h, (verbOf_eq_some_iff x v).2 hx]

theorem interpret_lineText (src : Source) (v : Verb) {ops : List Token} (h : operandsOk ops = true) (s : State) :
    interpret src none (lineText v ops) s = runVerb v src ops s :=
  interpret_verb src (tokens_lineText v h) (verbText_ok v).2 s

/-! ### Tests 1 and 2, and the reply (R163, R167) -/

theorem State.serveUnless_gated {s : State} (h : s.ctrl.op = .gated) (l : Line) (t : State) :
    s.serveUnless l t = s.reply l [['?', 'P', 'L']] false := if_pos h

theorem State.serveUnless_overrun {s : State} (h : s.ctrl.op ≠ .gated) {l : Line} (hl : l.overrun = true) (t : State) :
    s.serveUnless l t = s.reply l [['?', 'O', 'V']] false := (if_neg h).trans (if_pos hl)

theorem State.serveUnless_passed {s : State} (h : s.ctrl.op ≠ .gated) {l : Line} (hl : l.overrun = false) (t : State) :
    s.serveUnless l t = t := (if_neg h).trans (if_neg (by simp [hl]))

/-- A reply on a port that sends no response line, at the end of its event. -/
theorem replied {s : State} (hn : sendingResponse s.console = false) (l : Line) (x : Text) (xs : List Text) (b : Bool) :
    (s.reply l (x :: xs) b).kick = { s with console := (s.reply l (x :: xs) b).kick.console } ∧
      Answered s (s.reply l (x :: xs) b).kick l [] (x :: xs) b := by
  rw [State.kick_eq]
  exact ⟨rfl, answered_of_reply (u := s) hn rfl rfl⟩

theorem exec_row_console {s : State} (h : s.running) (v : Verb) (ops : List Token) :
    exec (verbRow v .console ops) s = .next (s.consoleCommand v ops).kick := by
  rw [exec_verbRow, State.event_running h, State.kick_eq]
  rfl

theorem exec_row_preload {s : State} (h : s.running) (v : Verb) (ops : List Token) :
    exec (verbRow v .preload ops) s = .next (s.preloadCommand v ops).kick := by
  rw [exec_verbRow, State.event_running h, State.kick_eq]
  rfl

/-- The state with the overrun flag of the console cleared (R162). -/
def State.unflagged (s : State) : State := { s with console := { s.console with overrun := false } }

theorem State.consoleCommand_free {s : State} (h : s.console.inService = none) (v : Verb) (ops : List Token) :
    s.consoleCommand v ops = s.unflagged.serveUnless { text := lineText v ops, mark := none, overrun := s.console.overrun }
      (answerLine { text := lineText v ops, mark := none, overrun := s.console.overrun }
        (runVerb v .console ops s.unflagged)) := by
  simp [State.consoleCommand, h, State.unflagged]

theorem State.preloadCommand_none {s : State} (h : s.ctrl.op ≠ .gated ∨ s.preloadWaits = true) (v : Verb)
    (ops : List Token) : s.preloadCommand v ops = s := by
  refine if_neg (fun hc => ?_)
  obtain ⟨hgated, hwaits⟩ := Bool.and_eq_true_iff.1 hc
  rcases h with h | h
  · exact h (gated_of_preloading hgated)
  · simp [h] at hwaits

/-- Settles O44: tests 1 and 2 of R163, the other line slot, the overrun flag, and preload that does not read. -/
theorem linesNotExecuted : Obligations.LinesNotExecuted := by
  unfold Obligations.LinesNotExecuted
  intro v s ops hrun
  rw [exec_row_preload hrun, exec_row_console hrun]
  refine ⟨fun hop hfree hn => ?_, fun hop hfree hn hover => ?_, fun w hw hwait hasm => ?_, fun w hw htaken => ?_,
    fun hread => ?_⟩
  · rw [State.consoleCommand_free hfree, State.serveUnless_gated (s := s.unflagged) hop]
    obtain ⟨hframe, hans⟩ := replied (s := s.unflagged) hn
      { text := lineText v ops, mark := none, overrun := s.console.overrun } ['?', 'P', 'L'] [] false
    exact ⟨_, rfl, hframe, hans.reply, hans.overrun⟩
  · rw [State.consoleCommand_free hfree, State.serveUnless_overrun (s := s.unflagged) hop hover]
    obtain ⟨hframe, hans⟩ := replied (s := s.unflagged) hn
      { text := lineText v ops, mark := none, overrun := s.console.overrun } ['?', 'O', 'V'] [] false
    exact ⟨_, rfl, hframe, hans.reply, hans.overrun⟩
  · rw [State.kick_eq]
    simp [State.consoleCommand, hw, hwait, hasm]
  · rw [State.kick_eq]
    have hboth : (s.console.waiting.isNone && s.console.assembling.isNone) = false := by
      rcases htaken with h | h
      · simp [Option.isNone_eq_false_iff, Option.isSome_iff_ne_none, h]
      · simp [Option.isNone_eq_false_iff, Option.isSome_iff_ne_none, h]
    simp [State.consoleCommand, hw, hboth]
  · rw [State.preloadCommand_none hread, State.kick_eq]

/-! ### The line IN SERVICE -/

/-- The state with the line IN SERVICE, if there is one, taken for another. -/
def State.relabelled (s : State) (l : Line) : State :=
  { s with console := { s.console with inService := s.console.inService.map (fun y => { y with line := l }) } }

/-- The answer of a verb does not depend on the line that names it (R167). -/
theorem answerLine_relabelled (l m : Line) (r : State × Answer) : answerLine l r = (answerLine m r).relabelled l := by
  unfold answerLine
  cases r.2 <;> rfl

theorem chooseLine_notice {c : Console} {n : Notice} {ns : List Notice} (hr : ∀ l ls, c.response ≠ some (l :: ls))
    (hn : c.notices = n :: ns) : chooseLine c =
      if c.noticesLost = 0 then { c with tx := .notice n, notices := ns }
      else { c with tx := .lost c.noticesLost n, notices := ns, noticesLost := 0 } := by
  rcases hresp : c.response with _ | _ | ⟨l, ls⟩
  · simp only [chooseLine, hresp, hn]
  · simp only [chooseLine, hresp, hn]
  · exact absurd hresp (hr l ls)

theorem chooseLine_none {c : Console} (hr : ∀ l ls, c.response ≠ some (l :: ls)) (hn : c.notices = []) :
    chooseLine c = c := by
  rcases hresp : c.response with _ | _ | ⟨l, ls⟩
  · simp only [chooseLine, hresp, hn]
  · simp only [chooseLine, hresp, hn]
  · exact absurd hresp (hr l ls)

theorem chooseLine_response {c : Console} {l : Text} {ls : List Text} (hr : c.response = some (l :: ls)) :
    chooseLine c = { c with tx := .response l, response := some ls } := by
  simp only [chooseLine, hr]

/-- The port with its line slots and its overrun flag changed. -/
def Console.withLines (c : Console) (a : Option Assembly) (w : Option Line) (v : Option Service) (o : Bool) : Console :=
  { c with assembling := a, waiting := w, inService := v, overrun := o }

section
variable (c : Console) (a : Option Assembly) (w : Option Line) (v : Option Service) (o : Bool)

/-- The choice of a line to send does not see the line slots (R173). -/
theorem chooseLine_withLines : chooseLine (c.withLines a w v o) = (chooseLine c).withLines a w v o := by
  by_cases hr : ∃ l ls, c.response = some (l :: ls)
  · obtain ⟨l, ls, hr⟩ := hr
    rw [chooseLine_response hr, chooseLine_response (c := c.withLines a w v o) hr]
    rfl
  · have hr : ∀ l ls, c.response ≠ some (l :: ls) := fun l ls h => hr ⟨l, ls, h⟩
    by_cases hn : c.notices = []
    · rw [chooseLine_none hr hn, chooseLine_none (c := c.withLines a w v o) hr hn]
    · obtain ⟨n, ns, hn⟩ := List.exists_cons_of_ne_nil hn
      have hlost : (c.withLines a w v o).noticesLost = c.noticesLost := rfl
      rw [chooseLine_notice hr hn, chooseLine_notice (c := c.withLines a w v o) hr hn, hlost]
      split_ifs <;> rfl

theorem settle_withLines : settle (c.withLines a w v o) = (settle c).withLines a w v o := by
  have htx : (c.withLines a w v o).tx = c.tx := rfl
  unfold settle
  rw [htx]
  split_ifs
  · exact chooseLine_withLines c a w v o
  · rfl

end

theorem settle_waiting (c : Console) : (settle c).waiting = c.waiting := (congrArg Console.waiting (settle_rest c) :)

theorem State.kick_relabelled (s : State) (l : Line) : (s.relabelled l).kick = s.kick.relabelled l := by
  rw [State.kick_eq, State.kick_eq s]
  have hset := settle_withLines s.console s.console.assembling s.console.waiting
    (s.console.inService.map (fun y => { y with line := l })) s.console.overrun
  refine congrArg (fun c : Console => { s with console := c }) (hset.trans ?_)
  unfold Console.withLines
  simp only [settle_assembling, settle_waiting, settle_inService, settle_overrun]

/-- A verb's row that the console executes: its own rule, and its answer (R163, R167). -/
theorem exec_row_executed {s : State} (h : s.running) (hop : s.ctrl.op ≠ .gated) (hfree : s.console.inService = none)
    (hover : s.console.overrun = false) (v : Verb) (ops : List Token) : exec (verbRow v .console ops) s =
      .next (answerLine (lineOf v ops) (runVerb v .console ops s.unflagged)).kick := by
  rw [exec_row_console h, State.consoleCommand_free hfree, hover, State.serveUnless_passed (s := s.unflagged) hop rfl]
  rfl

/-- A line that no console line precedes, at its CR: it enters service (R161). -/
theorem exec_character_serves {s : State} {f : RxFrame} {a : Assembly} (hrun : s.running)
    (hgood : badFrame (f.begunWith.getD s.console.parityInUse) f = false) (ha : s.console.assembling = some a)
    (hcr : f.data = 0x0D) (hfree : s.console.inService = none) :
    exec (.character f) s = .next
      (({ s with console := { s.console with assembling := none, overrun := false } } : State).serveLine
        { text := a.text, mark := a.mark, overrun := s.console.overrun }).kick := by
  rw [exec_character_cr hrun hgood ha hcr, State.completeLine_serves hfree]

/-- Settles O47: the seven tests in their order. -/
theorem lineTests : Obligations.LineTests := by
  unfold Obligations.LineTests
  intro s f a hrun ha hgood hcr hfree hn
  rw [exec_character_serves hrun hgood ha hcr hfree]
  generalize hs' : ({ s with console := { s.console with assembling := none, overrun := false } } : State) = s'
  have hsilent : sendingResponse s'.console = false := by rw [← hs']; exact hn
  have hopen : ∀ r : OpState, s.ctrl.op ≠ r → s'.ctrl.op ≠ r := by rw [← hs']; exact fun _ h => h
  have hreplies : ∀ (l : Line) (x : Text), ∃ t, Host.Outcome.next (s'.reply l [x] false).kick =
      (.next t : Host.Outcome State Fault Refusal) ∧ t = { s with console := t.console } ∧ t.replyLines = some [x] := by
    intro l x
    obtain ⟨hframe, hans⟩ := replied hsilent l x [] false
    refine ⟨_, rfl, ?_, hans.reply⟩
    rw [hframe, ← hs']
  unfold State.serveLine
  refine ⟨fun hop => ?_, fun hop hover => ?_, fun m hop hover hmark => ?_, fun hop hover hmark hsp => ?_,
    fun w ws hop hover hmark htok hw => ?_, fun w ws v hop hover hmark htok hw => ?_⟩
  · rw [State.serveUnless_gated (by rw [← hs']; exact hop)]
    exact hreplies _ _
  · rw [State.serveUnless_overrun (hopen _ hop) hover]
    exact hreplies _ _
  · rw [State.serveUnless_passed (hopen _ hop) hover, hmark, interpret_marked]
    have hreply := hreplies { text := a.text, mark := some m, overrun := s.console.overrun } (refusalText (markCode m))
    cases m with
    | ch => exact hreply
    | ll => exact hreply
    | fr => exact hreply
  · rw [State.serveUnless_passed (hopen _ hop) hover, hmark, interpret_spaces .console ((tokens_eq_nil_iff _).2 hsp)]
    exact hreplies _ _
  · rw [State.serveUnless_passed (hopen _ hop) hover, hmark, interpret_noVerb .console htok hw]
    exact hreplies _ _
  · rw [State.serveUnless_passed (hopen _ hop) hover, hmark, interpret_verb .console htok hw]
    have hrow := exec_row_executed (s := { s with console := { s.console with assembling := none } }) hrun hop hfree hover v ws
    have hclean : ({ s with console := { s.console with assembling := none } } : State).unflagged = s' := hs'
    rw [hclean] at hrow
    refine ⟨_, _, rfl, hrow, ?_⟩
    rw [answerLine_relabelled _ (lineOf v ws), State.kick_relabelled]
    exact ⟨rfl, rfl⟩

end Sys2Proof.Machine
end

section
/-! PROOFS. The characters of a line (R153, R154, R158 to R162). -/

namespace Sys2Proof.Machine

/-! ### Frames (R153, R154) -/

theorem badFrame_iff (p : Parity) (f : RxFrame) : badFrame p f = true ↔
    f.stopHigh = false ∨
    (p = .even ∧ (onesOf f.data + (if f.parityBit then 1 else 0)) % 2 = 1) ∨
    (p = .odd ∧ (onesOf f.data + (if f.parityBit then 1 else 0)) % 2 = 0) := by
  have hodd := oddOnes_eq f.data
  have hmod := Nat.mod_two_eq_zero_or_one (onesOf f.data)
  generalize onesOf f.data = k at hodd hmod
  have hsum : (k + (if f.parityBit then 1 else 0)) % 2 = if f.parityBit then 1 - k % 2 else k % 2 := by
    split_ifs <;> omega
  rw [hsum]
  cases p with
  | none => simp [badFrame, parityLevel]
  | even => cases hb : f.parityBit <;> rcases hmod with h | h <;> simp [badFrame, parityLevel, hodd, hb, h]
  | odd => cases hb : f.parityBit <;> rcases hmod with h | h <;> simp [badFrame, parityLevel, hodd, hb, h]

/-! ### A character with no line being assembled (R158) -/

theorem slotFree_iff (c : Console) : slotFree c = true ↔ c.waiting = none ∨ c.inService = none := by
  simp [slotFree]

theorem State.takeCharacter_dropped {s : State} {ch : Option Byte} (ha : s.console.assembling = none)
    (hlf : ch ≠ some 0x0A) (hslots : slotFree s.console = false) :
    s.takeCharacter ch = { s with console := { s.console with overrun := true } } := by
  rw [State.takeCharacter, if_neg hlf, ha]
  exact if_neg (by simp [hslots])

theorem State.takeCharacter_nothing {s : State} {b : Byte} (ha : s.console.assembling = none) (hb : b = 0x08 ∨ b = 0x1B)
    (hslots : slotFree s.console = true) : s.takeCharacter (some b) = s := by
  have hlf : some b ≠ some (0x0A : Byte) := by rcases hb with rfl | rfl <;> decide
  rw [State.takeCharacter, if_neg hlf, ha]
  exact (if_pos hslots).trans (if_pos (hb.imp (congrArg some) (congrArg some)))

theorem State.takeCharacter_begins {s : State} {ch : Option Byte} (ha : s.console.assembling = none)
    (hlf : ch ≠ some 0x0A) (hbs : ch ≠ some 0x08) (hesc : ch ≠ some 0x1B) (hslots : slotFree s.console = true) :
    s.takeCharacter ch = s.assemble Assembly.empty ch := by
  simp only [State.takeCharacter, if_neg hlf, ha, hslots, if_true, if_neg (not_or.2 ⟨hbs, hesc⟩)]

/-- A character that completes an empty line, with no line IN SERVICE. -/
theorem State.completeLine_first {s : State} (ha : s.console.assembling = none) (hfree : s.console.inService = none)
    (t : Text) (m : Option Mark) : s.completeLine t m =
      s.unflagged.serveLine { text := t, mark := m, overrun := s.console.overrun } := by
  rw [State.completeLine_serves hfree, ← ha]
  rfl

/-- The answer to an empty line (R163). -/
theorem serveLine_empty {s : State} (hn : sendingResponse s.console = false) (b : Bool) :
    (s.serveLine { text := [], mark := none, overrun := b }).kick =
      { s with console := (s.serveLine { text := [], mark := none, overrun := b }).kick.console } ∧
    Answered s (s.serveLine { text := [], mark := none, overrun := b }).kick { text := [], mark := none, overrun := b } []
      [if s.ctrl.op = .gated then ['?', 'P', 'L'] else if b then ['?', 'O', 'V'] else ['=']] := by
  unfold State.serveLine
  by_cases hop : s.ctrl.op = .gated
  · rw [State.serveUnless_gated hop, if_pos hop]
    exact replied hn _ _ [] false
  · rw [if_neg hop]
    cases b with
    | true =>
      rw [State.serveUnless_overrun hop rfl]
      exact replied hn _ _ [] false
    | false =>
      rw [State.serveUnless_passed hop rfl]
      exact replied hn _ _ [] false

/-- Settles O46: the parity of a frame, then a character by what it is and by the free line slots. -/
theorem characterBeginsLine : Obligations.CharacterBeginsLine := by
  unfold Obligations.CharacterBeginsLine
  refine ⟨badFrame_iff, fun s f hrun ha => ⟨fun hbad => ?bad, fun hgood => ?good⟩⟩
  case bad =>
    have hrec : s.received f = none := if_pos hbad
    rw [exec_character hrun, hrec, State.kick_eq]
    refine ⟨fun hwait hserv => ?_, fun hslots => ?_⟩
    · rw [State.takeCharacter_dropped ha (by decide)]
      simp [slotFree, Option.isNone_eq_false_iff, hwait, hserv]
    · rw [State.takeCharacter_begins ha (by decide) (by decide) (by decide) ((slotFree_iff _).2 hslots)]
      rfl
  case good =>
    rw [exec_character hrun, State.received_good hgood, State.kick_eq]
    have hne : ∀ {b : Byte}, f.data ≠ b → some f.data ≠ some b := fun h hc => h (Option.some.inj hc)
    have hbegins : (s.console.waiting = none ∨ s.console.inService = none) → f.data ≠ 0x0A → f.data ≠ 0x08 →
        f.data ≠ 0x1B → s.takeCharacter (some f.data) = s.assemble Assembly.empty (some f.data) := fun hslots hlf hbs hesc =>
      State.takeCharacter_begins ha (hne hlf) (hne hbs) (hne hesc) ((slotFree_iff _).2 hslots)
    refine ⟨fun hlf => ?lf, fun hlf hwait hserv => ?dropped, fun hslots hb => ?nothing, fun hslots hlow hhigh => ?printable,
      fun hslots hrange hbs hlf hcr hesc => ?other, fun v hcr hserv hwait => ?waits, fun hcr hserv hn => ?served⟩
    case lf => rw [hlf, State.takeCharacter_lf]
    case dropped =>
      rw [State.takeCharacter_dropped ha (hne hlf)]
      simp [slotFree, Option.isNone_eq_false_iff, hwait, hserv]
    case nothing => rw [State.takeCharacter_nothing ha hb ((slotFree_iff _).2 hslots)]
    case printable =>
      have hnot : ∀ b : Byte, b.toNat < 0x20 → f.data ≠ b := fun b hb h => by
        rw [h] at hlow
        omega
      have hprint : printable f.data = true := (printable_iff _).2 ⟨hlow, hhigh⟩
      rw [hbegins hslots (hnot _ (by decide)) (hnot _ (by decide)) (hnot _ (by decide)),
        State.assemble_take s _ (hnot _ (by decide)) (hnot _ (by decide)),
        Assembly.take_room hprint ⟨by decide, by decide⟩]
      rfl
    case other =>
      have hprint : ¬ printable f.data = true := by
        rw [printable_iff]
        omega
      rw [hbegins hslots hlf hbs hesc, State.assemble_take s _ hcr hesc, Assembly.take_other hprint hbs]
      rfl
    case waits =>
      rw [hcr] at hbegins ⊢
      rw [hbegins (.inl hwait) (by decide) (by decide) (by decide)]
      have hcomplete : s.assemble Assembly.empty (some 0x0D) = s.completeLine [] none := rfl
      rw [hcomplete, State.completeLine_waits hserv, ← ha]
    case served =>
      rw [hcr] at hbegins ⊢
      rw [hbegins (.inr hserv) (by decide) (by decide) (by decide)]
      have hcomplete : s.assemble Assembly.empty (some 0x0D) = s.completeLine [] none := rfl
      rw [hcomplete, State.completeLine_first ha hserv, ← State.kick_eq]
      obtain ⟨hframe, hans⟩ := serveLine_empty (s := s.unflagged) hn s.console.overrun
      exact ⟨_, rfl, hframe, hans⟩

/-! ### A line typed character by character -/

theorem execAll_append {cs ds : List Instr} {s t : State} (h : execAll cs s = .next t) :
    execAll (cs ++ ds) s = execAll ds t := by
  induction cs generalizing s with
  | nil =>
    obtain rfl := Host.Outcome.next.inj h
    rfl
  | cons c cs ih =>
    rw [execAll] at h
    rw [List.cons_append, execAll]
    cases hc : exec c s with
    | next u =>
      simp only [hc] at h ⊢
      exact ih h
    | fault r => simp [hc] at h
    | refused r => simp [hc] at h

theorem execAll_singleton (c : Instr) (s : State) : execAll [c] s = exec c s := by
  rw [execAll]
  cases hc : exec c s <;> rfl

/-- A character of a line: one that a slot stores (R159). -/
def LineChar (c : Char) : Prop := 0x20 ≤ c.toNat ∧ c.toNat ≤ 0x7E

theorem verbText_length (v : Verb) : (verbText v).length = 2 := by cases v <;> rfl

theorem lineChar_of_tokenOk {t : Token} (h : tokenOk t = true) : ∀ c ∈ t, LineChar c := by
  intro c hc
  obtain ⟨hlow, hhigh⟩ := ((tokenOk_iff t).1 h).2 c hc
  exact ⟨Nat.le_of_lt hlow, hhigh⟩

theorem lineText_chars (v : Verb) {ops : List Token} (h : operandsOk ops = true) : ∀ c ∈ lineText v ops, LineChar c := by
  obtain ⟨hops, -⟩ := Bool.and_eq_true_iff.1 h
  intro c hc
  rcases List.mem_append.1 hc with hv | ho
  · exact lineChar_of_tokenOk (verbText_ok v).1 c hv
  · obtain ⟨x, hx, hcx⟩ := List.mem_flatten.1 ho
    obtain ⟨y, hy, rfl⟩ := List.mem_map.1 hx
    rcases List.mem_cons.1 hcx with rfl | hcy
    · unfold LineChar
      decide
    · exact lineChar_of_tokenOk (List.all_eq_true.1 hops y hy) c hcy

theorem lineText_length (v : Verb) (ops : List Token) : (lineText v ops).length = lineLength ops := by
  have hlen : (ops.map (fun t => ' ' :: t)).flatten.length = (ops.map (fun t => 1 + t.length)).sum := by
    rw [List.length_flatten, List.map_map]
    congr 1
    exact List.map_congr_left (fun t _ => by simp [Nat.add_comm])
  rw [lineText, List.length_append, verbText_length, hlen, lineLength]

theorem lineText_room (v : Verb) {ops : List Token} (h : operandsOk ops = true) : (lineText v ops).length ≤ 72 := by
  obtain ⟨-, hroom⟩ := Bool.and_eq_true_iff.1 h
  rw [lineText_length]
  exact of_decide_eq_true hroom

theorem LineChar.byte {c : Char} (h : LineChar c) : (BitVec.ofNat 8 c.toNat).toNat = c.toNat := by
  obtain ⟨-, hhigh⟩ := h
  rw [BitVec.toNat_ofNat]
  omega

theorem LineChar.printable {c : Char} (h : LineChar c) : printable (BitVec.ofNat 8 c.toNat) = true :=
  (printable_iff _).2 (by rw [h.byte]; exact h)

theorem LineChar.char {c : Char} (h : LineChar c) : Char.ofNat (BitVec.ofNat 8 c.toNat).toNat = c := by
  rw [h.byte, Char.ofNat_toNat]

theorem LineChar.ne {c : Char} (h : LineChar c) {b : Byte} (hb : b.toNat < 0x20) : BitVec.ofNat 8 c.toNat ≠ b := by
  intro hc
  rw [← hc, h.byte] at hb
  exact absurd h.1 (Nat.not_le.2 hb)

theorem badFrame_goodFrame (p : Parity) (c : Char) : badFrame p (goodFrame p c) = false := by
  cases p <;> simp [badFrame, goodFrame, parityLevel]

/-- A character typed under the parity in use hands its byte to assembly. -/
theorem exec_typed {s : State} (hrun : s.running) (c : Char) :
    exec (.character (goodFrame s.console.parityInUse c)) s =
      .next (s.takeCharacter (some (BitVec.ofNat 8 c.toNat))).kick := by
  rw [exec_character hrun, State.received_good (f := goodFrame s.console.parityInUse c) (badFrame_goodFrame _ c)]
  rfl

/-- The state with this text being assembled. -/
def State.typing (s : State) (t : Text) : State :=
  { s with console := { s.console with assembling := some { text := t, mark := none } } }

/-- The state with the overrun flag set (R162). -/
def State.flagged (s : State) : State := { s with console := { s.console with overrun := true } }

section
variable {s : State} (hset : settle s.console = s.console)
include hset

theorem kick_typing (t : Text) : (s.typing t).kick = s.typing t := by
  rw [State.kick_eq]
  have h := settle_withLines s.console (some { text := t, mark := none }) s.console.waiting s.console.inService s.console.overrun
  rw [hset] at h
  exact congrArg (fun c : Console => { s with console := c }) h

theorem kick_flagged : s.flagged.kick = s.flagged := by
  rw [State.kick_eq]
  have h := settle_withLines s.console s.console.assembling s.console.waiting s.console.inService true
  rw [hset] at h
  exact congrArg (fun c : Console => { s with console := c }) h

/-- The characters of a text are stored one after the other. -/
theorem execAll_typing (hrun : s.running) (t : Text) (pre : Text) (ht : ∀ c ∈ t, LineChar c)
    (hroom : pre.length + t.length ≤ 72) :
    execAll (t.map (fun c => .character (goodFrame s.console.parityInUse c))) (s.typing pre) =
      .next (s.typing (pre ++ t)) := by
  induction t generalizing pre with
  | nil => simp [execAll]
  | cons c cs ih =>
    obtain ⟨hc, hcs⟩ := List.forall_mem_cons.1 ht
    rw [List.length_cons] at hroom
    have hone : exec (.character (goodFrame s.console.parityInUse c)) (s.typing pre) = .next (s.typing (pre ++ [c])) := by
      have hstored := exec_typed (s := s.typing pre) hrun c
      rw [State.takeCharacter_assembling (s := s.typing pre) rfl (fun h => hc.ne (by decide) (Option.some.inj h)),
        State.assemble_take _ _ (hc.ne (by decide)) (hc.ne (by decide)),
        Assembly.take_room hc.printable ⟨by dsimp only; omega, by simp⟩, hc.char] at hstored
      exact hstored.trans (congrArg Host.Outcome.next (kick_typing hset (pre ++ [c])))
    rw [List.map_cons, execAll, hone]
    dsimp only
    rw [ih (pre ++ [c]) hcs (by simp only [List.length_append, List.length_singleton]; omega), List.append_assoc,
      List.singleton_append]

/-- With both slots taken the characters of a line, its CR included, are dropped (R158, R162). -/
theorem execAll_dropped (hrun : s.running) (ha : s.console.assembling = none) (hslots : slotFree s.console = false)
    (t : Text) (ht : ∀ c ∈ t, BitVec.ofNat 8 c.toNat ≠ (0x0A : Byte)) :
    execAll (t.map (fun c => .character (goodFrame s.console.parityInUse c))) s.flagged = .next s.flagged := by
  induction t with
  | nil => rfl
  | cons c cs ih =>
    obtain ⟨hc, hcs⟩ := List.forall_mem_cons.1 ht
    have hone : exec (.character (goodFrame s.console.parityInUse c)) s.flagged = .next s.flagged := by
      have hdropped := exec_typed (s := s.flagged) hrun c
      rw [State.takeCharacter_dropped (s := s.flagged) ha (fun h => hc (Option.some.inj h)) hslots] at hdropped
      have hkick : s.flagged.kick = s.flagged := kick_flagged hset
      exact hdropped.trans (congrArg Host.Outcome.next hkick)
    rw [List.map_cons, execAll, hone]
    exact ih hcs

end

/-- The line that has been typed, at its CR, is its verb's row (R161, R163). -/
theorem State.completeLine_typed {s : State} (ha : s.console.assembling = none) (hslots : slotFree s.console = true)
    (v : Verb) {ops : List Token} (hops : operandsOk ops = true) :
    (s.typing (lineText v ops)).completeLine (lineText v ops) none = s.consoleCommand v ops := by
  cases hserv : s.console.inService with
  | none =>
    rw [State.completeLine_serves (s := s.typing (lineText v ops)) hserv, State.consoleCommand_free hserv]
    have hclean : ({ s.typing (lineText v ops) with console := { (s.typing (lineText v ops)).console with
        assembling := none, overrun := false } } : State) = s.unflagged := by
      rw [← ha]
      rfl
    rw [hclean, State.serveLine, interpret_lineText .console v hops]
    rfl
  | some w =>
    have hwait : s.console.waiting = none := by
      rcases (slotFree_iff _).1 hslots with h | h
      · exact h
      · rw [hserv] at h
        cases h
    rw [State.completeLine_waits (s := s.typing (lineText v ops)) hserv]
    simp only [State.consoleCommand, hserv, hwait, ha, Option.isNone_some, Option.isNone_none, Bool.and_self, if_true,
      State.typing]
    rfl

theorem State.consoleCommand_dropped {s : State} (hslots : slotFree s.console = false) (v : Verb) (ops : List Token) :
    s.consoleCommand v ops = s.flagged := by
  obtain ⟨hwait, hserv⟩ : s.console.waiting.isNone = false ∧ s.console.inService.isNone = false := by
    simpa [slotFree] using hslots
  simp only [State.consoleCommand, hserv, hwait, Bool.false_and, Bool.false_eq_true, if_false]
  rfl

/-- Settles O48: the characters are stored, or all dropped; then CR. -/
theorem typedLineIsCommand : Obligations.TypedLineIsCommand := by
  unfold Obligations.TypedLineIsCommand
  intro v ops s hrun ha hset hops
  have hchars := lineText_chars v hops
  have hroom := lineText_room v hops
  rw [exec_row_console hrun, typed, List.map_append, List.map_singleton]
  generalize htext : lineText v ops = text at hchars hroom
  obtain ⟨c, cs, rfl⟩ : ∃ c cs, text = c :: cs := by
    refine List.exists_cons_of_ne_nil (fun h => ?_)
    have hlen := congrArg List.length htext
    rw [h, lineText, List.length_append, verbText_length] at hlen
    simp at hlen
  obtain ⟨hc, hcs⟩ := List.forall_mem_cons.1 hchars
  rw [List.map_cons, List.cons_append, execAll, exec_typed hrun]
  have hlf : (some (BitVec.ofNat 8 c.toNat) : Option Byte) ≠ some 0x0A := fun h => hc.ne (by decide) (Option.some.inj h)
  cases hslots : slotFree s.console with
  | false =>
    rw [State.takeCharacter_dropped ha hlf hslots, State.consoleCommand_dropped hslots]
    have hfirst : ({ s with console := { s.console with overrun := true } } : State).kick = s.flagged := kick_flagged hset
    rw [hfirst, kick_flagged hset]
    have hall := execAll_dropped hset hrun ha hslots (cs ++ [Char.ofNat 13]) (fun x hx => by
      rcases List.mem_append.1 hx with h | h
      · exact (hcs x h).ne (by decide)
      · rw [List.mem_singleton.1 h]
        decide)
    rw [List.map_append, List.map_singleton] at hall
    exact hall
  | true =>
    have hne : ∀ b : Byte, b.toNat < 0x20 → (some (BitVec.ofNat 8 c.toNat) : Option Byte) ≠ some b := fun b hb h =>
      hc.ne hb (Option.some.inj h)
    rw [State.takeCharacter_begins ha hlf (hne _ (by decide)) (hne _ (by decide)) hslots,
      State.assemble_take s _ (hc.ne (by decide)) (hc.ne (by decide)),
      Assembly.take_room hc.printable ⟨by decide, by decide⟩, hc.char]
    have hfirst : ({ s with console := { s.console with
        assembling := some { Assembly.empty with text := Assembly.empty.text ++ [c] } } } : State).kick = s.typing [c] :=
      kick_typing hset [c]
    rw [hfirst]
    dsimp only
    rw [execAll_append (execAll_typing hset hrun cs [c] hcs (by simpa [Nat.add_comm] using hroom)), execAll_singleton,
      List.singleton_append, ← htext]
    have hcr := exec_typed (s := s.typing (lineText v ops)) hrun (Char.ofNat 13)
    have hcomplete : (s.typing (lineText v ops)).takeCharacter (some (BitVec.ofNat 8 (Char.ofNat 13).toNat)) =
        (s.typing (lineText v ops)).completeLine (lineText v ops) none := rfl
    rw [hcomplete, State.completeLine_typed ha hslots v hops] at hcr
    exact hcr

end Sys2Proof.Machine
end

section
/-! PROOFS. The rule of a verb sees neither the overrun flag nor the preload port (R162, R167). -/

namespace Sys2Proof.Machine

/-- The state with another overrun flag and another preload port. -/
def State.ported (s : State) (b : Bool) (p : Preload) : State :=
  { s with console := { s.console with overrun := b }, preload := p }

/-- A rule's result with another overrun flag and another preload port. -/
def portedAnswer (b : Bool) (p : Preload) (r : State × Answer) : State × Answer := (r.1.ported b p, r.2)

section
variable (s : State) (b : Bool) (p : Preload) (n : SlotNo)

@[simp] theorem State.ported_slot : (s.ported b p).slot n = s.slot n := rfl
@[simp] theorem State.ported_slotSeq : (s.ported b p).slotSeq n = s.slotSeq n := rfl
@[simp] theorem State.ported_ctrl : (s.ported b p).ctrl = s.ctrl := rfl
@[simp] theorem State.ported_log : (s.ported b p).log = s.log := rfl
@[simp] theorem State.ported_mem : (s.ported b p).mem = s.mem := rfl
@[simp] theorem State.ported_alerts : (s.ported b p).alerts = s.alerts := rfl
@[simp] theorem State.ported_transit : (s.ported b p).transit = s.transit := rfl
@[simp] theorem State.ported_entry (k : EntryNo) : (s.ported b p).entry k = s.entry k := rfl
@[simp] theorem State.ported_heldAs (r : HoldReason) : (s.ported b p).heldAs n r = s.heldAs n r := rfl
@[simp] theorem State.ported_blocked : (s.ported b p).blocked n = s.blocked n := rfl
@[simp] theorem State.ported_slotIs (st : SlotState) : (s.ported b p).slotIs n st = s.slotIs n st := rfl
@[simp] theorem State.ported_hitRecord (a : Access) : (s.ported b p).hitRecord a = s.hitRecord a := rfl
@[simp] theorem State.ported_oldest : (s.ported b p).oldestForDecision = s.oldestForDecision := rfl

theorem State.raise_ported (x : Notice) : (s.ported b p).raise x = (s.raise x).ported b p := by
  have hoffer : offerNotice s.ctrl.params.quiet x { s.console with overrun := b } =
      { offerNotice s.ctrl.params.quiet x s.console with overrun := b } := by
    unfold offerNotice
    dsimp only
    split_ifs <;> rfl
  exact congrArg (fun c : Console => ({ s with console := c, preload := p } : State)) hoffer

theorem State.respondLoose_ported (t : Option NearTag) (r : Reason) :
    (s.ported b p).respondLoose t r = (s.respondLoose t r).ported b p := by cases t <;> rfl

theorem State.answerSlot_ported (r : Reason) (d : Option Data) :
    (s.ported b p).answerSlot n r d = (s.answerSlot n r d).ported b p := by
  unfold State.answerSlot
  rw [State.ported_slot]
  cases s.slot n with
  | none => rfl
  | some a =>
    dsimp only
    cases a.tag <;> rfl

theorem State.forwardSlot_ported : (s.ported b p).forwardSlot n = (s.forwardSlot n).ported b p := rfl

theorem State.closeRecord_ported (o : RecordOutcome) (r : Option Reason) (d : Option Data) :
    (s.ported b p).closeRecord n o r d = (s.closeRecord n o r d).ported b p := by
  unfold State.closeRecord
  rw [State.ported_slotSeq]
  cases s.slotSeq n <;> rfl

theorem State.markRecord_ported (m : PathMark) : (s.ported b p).markRecord n m = (s.markRecord n m).ported b p := by
  unfold State.markRecord
  rw [State.ported_slotSeq]
  cases s.slotSeq n <;> rfl

theorem State.carryOut_ported : (s.ported b p).carryOut n = (s.carryOut n).ported b p := by
  unfold State.carryOut
  rw [State.ported_slot]
  cases s.slot n with
  | none => rfl
  | some a =>
    dsimp only
    rw [State.ported_hitRecord]
    cases s.hitRecord a with
    | none =>
      dsimp only
      rw [State.markRecord_ported, State.forwardSlot_ported]
    | some k =>
      dsimp only
      have hset : (s.ported b p).setRecord k (hitEffect ((s.ported b p).record k) a) =
        (s.setRecord k (hitEffect (s.record k) a)).ported b p := rfl
      rw [hset, State.closeRecord_ported, State.answerSlot_ported]
      rfl

theorem State.release_ported : (s.ported b p).release n = (s.release n).ported b p := rfl

theorem State.proceed_ported : (s.ported b p).proceed n = (s.proceed n).ported b p := by
  unfold State.proceed
  rw [State.ported_slot]
  rcases (s.slot n).bind Access.pendAction with _ | _ | _
  · rfl
  · rfl
  · exact ((s.leaveHold n).modSlot n Access.released).carryOut_ported b p n

theorem State.answerHeld_ported (o : RecordOutcome) (r : Reason) (d : Option Data) :
    (s.ported b p).answerHeld n o r d = (s.answerHeld n o r d).ported b p := by
  have hleave : (s.ported b p).leaveHold n = (s.leaveHold n).ported b p := rfl
  unfold State.answerHeld
  rw [hleave, State.closeRecord_ported, State.answerSlot_ported]

/-- A fold over slots whose steps see neither flag nor port. -/
theorem foldl_ported {α β : Type} {f : State × β → α → State × β}
    (hf : ∀ acc a, f (acc.1.ported b p, acc.2) a = ((f acc a).1.ported b p, (f acc a).2)) (l : List α) (acc : State × β) :
    l.foldl f (acc.1.ported b p, acc.2) = ((l.foldl f acc).1.ported b p, (l.foldl f acc).2) := by
  induction l generalizing acc with
  | nil => rfl
  | cons a l ih => rw [List.foldl_cons, hf, ih, List.foldl_cons]

theorem clearStep_ported (acc : State × Nat) : clearStep (acc.1.ported b p, acc.2) n =
    ((clearStep acc n).1.ported b p, (clearStep acc n).2) := by
  unfold clearStep
  simp only [State.ported_heldAs, State.ported_blocked, State.proceed_ported]
  split_ifs <;> rfl

theorem walkStep_ported (acc : State × Nat) : walkStep (acc.1.ported b p, acc.2) n =
    ((walkStep acc n).1.ported b p, (walkStep acc n).2) := by
  unfold walkStep
  by_cases hheld : acc.1.heldForDecision n = true
  · rw [if_pos hheld, if_pos (c := (acc.1.ported b p).heldForDecision n = true) hheld]
    by_cases hblocked : acc.1.blocked n = true
    · rw [if_pos hblocked, if_pos (c := (acc.1.ported b p).blocked n = true) hblocked]
      rfl
    · rw [if_neg hblocked, if_neg (c := (acc.1.ported b p).blocked n = true) hblocked]
      rfl
  · rw [if_neg hheld, if_neg (c := (acc.1.ported b p).heldForDecision n = true) hheld]

theorem State.clearance_ported : (s.ported b p).clearance = (s.clearance.1.ported b p, s.clearance.2) :=
  foldl_ported b p (fun acc m => clearStep_ported b p m acc) s.hold (s, 0)

theorem State.walk_ported : (s.ported b p).walk = (s.walk.1.ported b p, s.walk.2) :=
  foldl_ported b p (fun acc m => walkStep_ported b p m acc) s.hold (s, 0)

theorem State.releaseAll_ported : (s.ported b p).releaseAll = (s.releaseAll.1.ported b p, s.releaseAll.2) := by
  unfold State.releaseAll
  dsimp only
  rw [State.walk_ported]
  dsimp only
  rw [State.clearance_ported]

theorem farResetStep_ported (acc : State × Nat × Nat) : farResetStep (acc.1.ported b p, acc.2) n =
    ((farResetStep acc n).1.ported b p, (farResetStep acc n).2) := by
  unfold farResetStep
  dsimp only
  rw [State.ported_slot]
  cases acc.1.slot n with
  | none => rfl
  | some a =>
    dsimp only
    cases a.state with
    | issued =>
      dsimp only
      rw [State.respondLoose_ported, State.closeRecord_ported]
      rfl
    | held => rfl
    | queued => rfl
    | answering => rfl
    | orphan => rfl

theorem farResetM_ported (acc : State × Nat × Nat) : farResetM (acc.1.ported b p, acc.2) =
    ((farResetM acc).1.ported b p, (farResetM acc).2) := by
  unfold farResetM
  dsimp only
  rw [State.ported_transit]
  cases acc.1.transit.slotM with
  | none => rfl
  | some m =>
    dsimp only
    cases m.state <;> rfl

theorem State.farReset_ported : (s.ported b p).farReset = (s.farReset.1.ported b p, s.farReset.2) := by
  have hfold : allSixteen.foldl farResetStep (s.ported b p, 0, 0) = _ :=
    foldl_ported b p (fun acc m => farResetStep_ported b p m acc) allSixteen (s, 0, 0)
  unfold State.farReset
  rw [hfold, farResetM_ported]
  generalize farResetM (allSixteen.foldl farResetStep (s, 0, 0)) = acc
  rfl

end

/-! ### The rules of the verbs -/

section
variable (o : Operands) (s : State) (b : Bool) (p : Preload)

theorem cmdFr_ported : cmdFr o (s.ported b p) = portedAnswer b p (cmdFr o s) := by
  unfold cmdFr
  cases readNone o with
  | none => rfl
  | some u =>
    dsimp only
    rw [State.farReset_ported]
    rfl

theorem cmdTs_ported : cmdTs o (s.ported b p) = portedAnswer b p (cmdTs o s) := by
  unfold cmdTs
  cases readNone o <;> rfl

theorem cmdWs_ported : cmdWs o (s.ported b p) = portedAnswer b p (cmdWs o s) := by
  unfold cmdWs
  cases readWs o with
  | none => rfl
  | some r =>
    dsimp only
    rw [State.ported_entry]
    split_ifs <;> rfl

theorem cmdWr_ported : cmdWr o (s.ported b p) = portedAnswer b p (cmdWr o s) := by
  unfold cmdWr
  cases readWr o with
  | none => rfl
  | some r =>
    dsimp only
    rw [State.ported_entry]
    cases (s.entry r.1).state <;> rfl

theorem cmdWa_ported : cmdWa o (s.ported b p) = portedAnswer b p (cmdWa o s) := by
  unfold cmdWa
  cases readDigit 16 o with
  | none => rfl
  | some n =>
    dsimp only
    rw [State.ported_entry]
    cases (s.entry n).state <;> rfl

theorem cmdWd_ported : cmdWd o (s.ported b p) = portedAnswer b p (cmdWd o s) := by
  unfold cmdWd
  cases readDigit 16 o with
  | none => rfl
  | some n =>
    dsimp only
    rw [State.ported_entry]
    split_ifs <;> rfl

theorem cmdWx_ported : cmdWx o (s.ported b p) = portedAnswer b p (cmdWx o s) := by
  unfold cmdWx
  cases readDigit 16 o <;> rfl

theorem cmdWq_ported : cmdWq o (s.ported b p) = portedAnswer b p (cmdWq o s) := by
  unfold cmdWq
  cases readDigit 16 o <;> rfl

theorem cmdHl_ported : cmdHl o (s.ported b p) = portedAnswer b p (cmdHl o s) := by
  unfold cmdHl
  cases readNone o <;> rfl

theorem cmdHr_ported : cmdHr o (s.ported b p) = portedAnswer b p (cmdHr o s) := by
  unfold cmdHr
  rcases readOptDigit o with _ | _ | n
  · rfl
  · dsimp only
    rw [State.ported_oldest]
    cases s.oldestForDecision with
    | none => rfl
    | some n =>
      dsimp only
      rw [State.release_ported, State.clearance_ported]
      rfl
  · dsimp only
    rw [State.ported_slotIs, State.ported_heldAs, State.ported_blocked, State.release_ported, State.clearance_ported]
    split_ifs <;> rfl

theorem cmdHa_ported : cmdHa o (s.ported b p) = portedAnswer b p (cmdHa o s) := by
  unfold cmdHa
  cases readHa o with
  | none => rfl
  | some r =>
    dsimp only
    rw [State.ported_slot]
    cases (s.slot r.1).filter (fun a => a.state == .held) with
    | none => rfl
    | some a =>
      dsimp only
      cases answerData a r.2 with
      | none => rfl
      | some d =>
        dsimp only
        rw [State.answerHeld_ported, State.clearance_ported]
        rfl

theorem cmdHf_ported : cmdHf o (s.ported b p) = portedAnswer b p (cmdHf o s) := by
  unfold cmdHf
  cases readDigit 16 o with
  | none => rfl
  | some n =>
    dsimp only
    rw [State.ported_slotIs, State.answerHeld_ported, State.clearance_ported]
    split_ifs <;> rfl

theorem cmdRa_ported : cmdRa o (s.ported b p) = portedAnswer b p (cmdRa o s) := by
  unfold cmdRa
  cases readNone o with
  | none => rfl
  | some u =>
    dsimp only
    rw [State.releaseAll_ported]
    rfl

theorem cmdSs_ported : cmdSs o (s.ported b p) = portedAnswer b p (cmdSs o s) := by
  unfold cmdSs
  cases readSs o <;> rfl

theorem cmdSx_ported : cmdSx o (s.ported b p) = portedAnswer b p (cmdSx o s) := by
  unfold cmdSx
  cases readDigit 8 o <;> rfl

theorem cmdSq_ported : cmdSq o (s.ported b p) = portedAnswer b p (cmdSq o s) := by
  unfold cmdSq
  cases readDigit 8 o <;> rfl

theorem cmdLr_ported : cmdLr o (s.ported b p) = portedAnswer b p (cmdLr o s) := by
  unfold cmdLr
  cases readLr o with
  | none => rfl
  | some q =>
    dsimp only
    rw [State.ported_log]
    cases s.log.records.find? (fun r => r.seq = q) <;> rfl

theorem cmdLn_ported : cmdLn o (s.ported b p) = portedAnswer b p (cmdLn o s) := by
  unfold cmdLn
  cases readNone o with
  | none => rfl
  | some u =>
    dsimp only
    rw [State.ported_log]
    cases s.log.records with
    | nil => rfl
    | cons r rs =>
      dsimp only
      split_ifs <;> rfl

theorem cmdLc_ported : cmdLc o (s.ported b p) = portedAnswer b p (cmdLc o s) := by
  unfold cmdLc
  cases readNone o <;> rfl

theorem cmdLm_ported : cmdLm o (s.ported b p) = portedAnswer b p (cmdLm o s) := by
  unfold cmdLm
  rcases readLm o with _ | _ | m <;> rfl

theorem cmdAk_ported : cmdAk o (s.ported b p) = portedAnswer b p (cmdAk o s) := by
  unfold cmdAk
  rcases readOptDigit o with _ | _ | n
  · rfl
  · rfl
  · dsimp only
    rw [State.ported_alerts]
    split_ifs <;> rfl

theorem cmdGo_ported : cmdGo o (s.ported b p) = portedAnswer b p (cmdGo o s) := by
  unfold cmdGo
  cases readNone o with
  | none => rfl
  | some u =>
    dsimp only
    rw [State.ported_ctrl]
    cases s.ctrl.op <;> rfl

theorem cmdBy_ported : cmdBy o (s.ported b p) = portedAnswer b p (cmdBy o s) := by
  unfold cmdBy
  cases readNone o with
  | none => rfl
  | some u =>
    dsimp only
    rw [State.ported_ctrl]
    cases s.ctrl.op <;> rfl

theorem State.freeze_ported (r : ReturnState) : (s.ported b p).freeze r = (s.freeze r).ported b p :=
  State.raise_ported { s with ctrl := { s.ctrl with op := .frozen, ret := some r } } b p .fz

theorem cmdFz_ported : cmdFz o (s.ported b p) = portedAnswer b p (cmdFz o s) := by
  unfold cmdFz
  cases readNone o with
  | none => rfl
  | some u =>
    dsimp only
    rw [State.ported_ctrl]
    cases s.ctrl.op with
    | bypass => exact congrArg (·, _) (s.freeze_ported b p .bypass)
    | watch => exact congrArg (·, _) (s.freeze_ported b p .watch)
    | frozen => rfl
    | gated => rfl

theorem cmdTh_ported : cmdTh o (s.ported b p) = portedAnswer b p (cmdTh o s) := by
  unfold cmdTh
  cases readNone o with
  | none => rfl
  | some u =>
    dsimp only
    rw [State.ported_ctrl]
    cases s.ctrl.op with
    | frozen =>
      cases s.ctrl.ret with
      | none => rfl
      | some r => exact congrArg (·, _) ((s.enter (opOfReturn r)).raise_ported b p .th)
    | gated => rfl
    | bypass => rfl
    | watch => rfl

theorem cmdCl_ported : cmdCl o (s.ported b p) = portedAnswer b p (cmdCl o s) := by
  unfold cmdCl
  cases readNone o with
  | none => rfl
  | some u =>
    dsimp only
    have hclear : (s.ported b p).clearRecords = s.clearRecords.ported b p := rfl
    have hstate : ∀ t : State, (t.ported b p).wipeTables.clearedState = t.wipeTables.clearedState.ported b p := by
      intro t
      have hwipe : (t.ported b p).wipeTables = t.wipeTables.ported b p := rfl
      rw [hwipe]
      unfold State.clearedState
      rw [State.ported_ctrl]
      cases t.wipeTables.ctrl.op <;> rfl
    rw [hclear, State.releaseAll_ported]
    dsimp only
    rw [hstate]
    rfl

theorem cmdSt_ported : cmdSt o (s.ported b p) = portedAnswer b p (cmdSt o s) := by
  unfold cmdSt
  cases readNone o <;> rfl

theorem cmdSp_ported : cmdSp o (s.ported b p) = portedAnswer b p (cmdSp o s) := by
  unfold cmdSp
  rw [State.ported_ctrl]
  cases readSp s.ctrl.params o <;> rfl

theorem cmdMa_ported : cmdMa o (s.ported b p) = portedAnswer b p (cmdMa o s) := by
  unfold cmdMa
  rw [State.ported_mem]
  cases readMa s.mem o <;> rfl

theorem State.startAccess_ported (h : InHand) (c : AccClass) :
    (s.ported b p).startAccess h c = portedAnswer b p (s.startAccess h c) := by
  unfold State.startAccess
  rw [State.ported_transit]
  cases s.transit.slotM <;> rfl

theorem cmdMr_ported (src : Source) : cmdMr src o (s.ported b p) = portedAnswer b p (cmdMr src o s) := by
  unfold cmdMr
  rw [State.ported_mem]
  cases readMa s.mem o with
  | none => rfl
  | some r => exact s.startAccess_ported b p _ _

theorem cmdMw_ported (src : Source) : cmdMw src o (s.ported b p) = portedAnswer b p (cmdMw src o s) := by
  unfold cmdMw
  rw [State.ported_mem]
  cases readMw s.mem o with
  | none => rfl
  | some r => exact s.startAccess_ported b p _ _

theorem verbRule_ported (v : Verb) (src : Source) :
    verbRule v src o (s.ported b p) = portedAnswer b p (verbRule v src o s) := by
  cases v with
  | fr => exact cmdFr_ported o s b p
  | ts => exact cmdTs_ported o s b p
  | ws => exact cmdWs_ported o s b p
  | wr => exact cmdWr_ported o s b p
  | wa => exact cmdWa_ported o s b p
  | wd => exact cmdWd_ported o s b p
  | wx => exact cmdWx_ported o s b p
  | wq => exact cmdWq_ported o s b p
  | hl => exact cmdHl_ported o s b p
  | hr => exact cmdHr_ported o s b p
  | ha => exact cmdHa_ported o s b p
  | hf => exact cmdHf_ported o s b p
  | ra => exact cmdRa_ported o s b p
  | ss => exact cmdSs_ported o s b p
  | sx => exact cmdSx_ported o s b p
  | sq => exact cmdSq_ported o s b p
  | lr => exact cmdLr_ported o s b p
  | ln => exact cmdLn_ported o s b p
  | lc => exact cmdLc_ported o s b p
  | lm => exact cmdLm_ported o s b p
  | ak => exact cmdAk_ported o s b p
  | go => exact cmdGo_ported o s b p
  | byp => exact cmdBy_ported o s b p
  | fz => exact cmdFz_ported o s b p
  | th => exact cmdTh_ported o s b p
  | cl => exact cmdCl_ported o s b p
  | st => exact cmdSt_ported o s b p
  | sp => exact cmdSp_ported o s b p
  | ma => exact cmdMa_ported o s b p
  | mr => exact cmdMr_ported o s b p src
  | mw => exact cmdMw_ported o s b p src

end

/-- What a verb does is the same whatever the overrun flag and the preload port (R162, R167). -/
theorem runVerb_ported (v : Verb) (src : Source) (ops : List Token) (s : State) (b : Bool) (p : Preload) :
    runVerb v src ops (s.ported b p) = portedAnswer b p (runVerb v src ops s) := by
  unfold runVerb
  cases readOperands ops with
  | none => rfl
  | some o => exact verbRule_ported o s b p v src

/-- A verb's rule leaves the preload port alone. -/
theorem runVerb_preload (v : Verb) (src : Source) (ops : List Token) (s : State) :
    (runVerb v src ops s).1.preload = s.preload := by
  have h := runVerb_ported v src ops s s.console.overrun s.preload
  exact congrArg (fun r : State × Answer => r.1.preload) h

end Sys2Proof.Machine
end

section
/-! PROOFS. A line that waited enters service, and the end of a line sent (R144, R161, R163, R167, R173 to R176). -/

namespace Sys2Proof.Machine

/-! ### Entry to service -/

theorem answerLine_ported (l : Line) (r : State × Answer) (b : Bool) (p : Preload) :
    answerLine l (portedAnswer b p r) = (answerLine l r).ported b p := by
  unfold answerLine portedAnswer
  cases r.2 <;> rfl

theorem answerLine_preload (l : Line) (r : State × Answer) : (answerLine l r).preload = r.1.preload := by
  unfold answerLine
  cases r.2 <;> rfl

theorem State.kick_ported (s : State) (b : Bool) (p : Preload) : (s.ported b p).kick = s.kick.ported b p := by
  rw [State.kick_eq, State.kick_eq s]
  have hset := settle_withLines s.console s.console.assembling s.console.waiting s.console.inService b
  refine congrArg (fun c : Console => { s with console := c, preload := p }) (hset.trans ?_)
  unfold Console.withLines
  simp only [settle_assembling, settle_waiting, settle_inService]

/-- A verb's line runs the same with the overrun flag set as without it. -/
theorem answerLine_unflagged (s : State) (l : Line) (v : Verb) (ops : List Token) :
    (answerLine l (runVerb v .console ops s)).kick =
      (answerLine l (runVerb v .console ops s.unflagged)).kick.ported s.console.overrun s.preload := by
  have h := runVerb_ported v .console ops s.unflagged s.console.overrun s.preload
  have hsame : s.unflagged.ported s.console.overrun s.preload = s := rfl
  rw [hsame] at h
  rw [h, answerLine_ported, State.kick_ported]

/-- A line that finds no line IN SERVICE enters service as R163 says. -/
theorem enters_serveLine {s : State} (hrun : s.running) (hfree : s.console.inService = none)
    (hn : sendingResponse s.console = false) (w : Line) : Enters s (s.serveLine w).kick w := by
  have hreplies : ∀ x : Text, (s.reply w [x] false).kick = { s with console := (s.reply w [x] false).kick.console } ∧
      Answered s (s.reply w [x] false).kick w [] [x] := fun x => replied hn w x [] false
  refine ⟨?line, fun hop => ?gated, fun hop hover => ?overrun, fun m hop hover hmark => ?marked,
    fun hop hover hmark hsp => ?empty, fun x ws hop hover hmark htok hx => ?noVerb, fun x ws v hop hover hmark htok hx => ?verb⟩
  case line =>
    have hserves := (s.serveLine_inServiceAfter w).serves
    rw [State.kick_eq]
    dsimp only
    rw [settle_inService]
    exact hserves
  case gated =>
    rw [State.serveLine, State.serveUnless_gated hop]
    exact hreplies _
  case overrun =>
    rw [State.serveLine, State.serveUnless_overrun hop hover]
    exact hreplies _
  case marked =>
    rw [State.serveLine, State.serveUnless_passed hop hover, hmark, interpret_marked]
    have hreply := hreplies (refusalText (markCode m))
    cases m with
    | ch => exact hreply
    | ll => exact hreply
    | fr => exact hreply
  case empty =>
    rw [State.serveLine, State.serveUnless_passed hop hover, hmark, interpret_spaces .console ((tokens_eq_nil_iff _).2 hsp)]
    exact hreplies _
  case noVerb =>
    rw [State.serveLine, State.serveUnless_passed hop hover, hmark, interpret_noVerb .console htok hx]
    exact hreplies _
  case verb =>
    rw [State.serveLine, State.serveUnless_passed hop hover, hmark, interpret_verb .console htok hx]
    refine ⟨_, exec_row_executed (s := s.unflagged) hrun hop hfree rfl v ws, ?_⟩
    have htwice : s.unflagged.unflagged = s.unflagged := rfl
    have hport : (answerLine (lineOf v ws) (runVerb v .console ws s.unflagged)).kick.preload = s.preload := by
      rw [State.kick_eq]
      exact (answerLine_preload _ _).trans (runVerb_preload v .console ws s.unflagged)
    rw [htwice, answerLine_unflagged, answerLine_relabelled w (lineOf v ws), State.kick_relabelled]
    generalize (answerLine (lineOf v ws) (runVerb v .console ws s.unflagged)).kick = u at hport
    rw [← hport]
    rfl

theorem NoticesApart.waiting {c d : Console} (h : NoticesApart c d) : d.waiting = c.waiting :=
  (congrArg Console.waiting h :)

/-- A line that enters service leaves the other slot as it was. -/
theorem State.serveLine_waiting (s : State) (l : Line) : (s.serveLine l).console.waiting = s.console.waiting := by
  unfold State.serveLine State.serveUnless
  split
  · rfl
  · split
    · rfl
    · have h := (interpret_noticesApart .console l.mark l.text s).waiting
      unfold answerLine
      split <;> exact h

/-! ### The end of a service -/

/-- The console port of an ended service, with the D and Y parameters in use if the service took them (R144, R167). -/
def State.serviceEnded (s : State) (settings : Bool) : State :=
  let t := if settings then s.takeSettings else s
  { t with console := { t.console with inService := none, waiting := none, response := none } }

theorem State.endService_alone {s : State} {v : Service} (hv : s.console.inService = some v)
    (hw : s.console.waiting = none) : s.endService = s.serviceEnded v.settings := by
  unfold State.endService State.serviceEnded
  rw [hv]
  cases hb : v.settings with
  | false =>
    simp only [Option.any_some, hb, Bool.false_eq_true, if_false, hw]
  | true =>
    have hw' : s.takeSettings.console.waiting = none := hw
    simp only [Option.any_some, hb, if_true, hw']

theorem State.endService_next {s : State} {v : Service} {w : Line} (hv : s.console.inService = some v)
    (hw : s.console.waiting = some w) : s.endService = (s.serviceEnded v.settings).serveLine w := by
  unfold State.endService State.serviceEnded
  rw [hv]
  cases hb : v.settings with
  | false =>
    simp only [Option.any_some, hb, Bool.false_eq_true, if_false, hw]
  | true =>
    have hw' : s.takeSettings.console.waiting = some w := hw
    simp only [Option.any_some, hb, if_true, hw']

theorem State.serviceEnded_false {s : State} (hw : s.console.waiting = none) :
    s.serviceEnded false = { s with console := { s.console with inService := none, response := none } } := by
  simp only [State.serviceEnded, Bool.false_eq_true, if_false, hw]

theorem State.serviceEnded_true {s : State} (hw : s.console.waiting = none) :
    s.serviceEnded true = { s with console := { s.console with
      inService := none
      response := none
      baudInUse := s.ctrl.params.baud
      parityInUse := s.ctrl.params.parity
      begunUnder := if s.console.tx = .idle then s.console.begunUnder else some s.console.txSettings } } := by
  simp only [State.serviceEnded, if_true, State.takeSettings, hw]

/-- The state in which a line that waited has entered service. -/
theorem served_next (s : State) (w : Line) (b : Bool) :
    ((s.serviceEnded b).serveLine w).kick.console.waiting = none ∧
      ∃ x, ((s.serviceEnded b).serveLine w).kick.console.inService = some x ∧ x.line = w := by
  rw [State.kick_eq]
  dsimp only
  rw [settle_waiting, settle_inService, State.serveLine_waiting]
  exact ⟨rfl, ((s.serviceEnded b).serveLine_inServiceAfter w).serves⟩

/-! ### The end of a line sent -/

theorem exec_lineSent {s : State} (h : s.running) : exec .lineSent s = .next s.finishLine.kick := by
  change s.event State.finishLine = _
  rw [State.event_running h, State.kick_eq]

theorem framesOf_eq (p : Parity) (t : Text) : (lineBytes t).map (frameBits p) = framesOf p t := by
  unfold framesOf lineBytes
  simp only [← frameBits_eq]
  rw [List.map_append, List.map_map]
  rfl

/-- What TXD carries for the line being sent (R153, R168, R174). -/
theorem txdFrames_sending {s : State} {t : Text} (h : txText s.console.tx = some t) :
    s.txdFrames = framesOf s.console.txSettings.parity t := by
  simp only [State.txdFrames, h, framesOf_eq]

theorem State.finishLine_last {s : State} {l : Text} (htx : s.console.tx = .response l)
    (hr : s.console.response = some []) :
    s.finishLine = ({ s with console := lineEnded s } : State).endService := by
  have hr' : (lineEnded s).response = some [] := hr
  simp only [State.finishLine, htx, State.endLine_eq, hr']

/-- Settles O52: the frames of a line, then what follows its end by the line that was sent. -/
theorem lineSentGoesOn : Obligations.LineSentGoesOn := by
  unfold Obligations.LineSentGoesOn
  refine ⟨fun s hidle => by simp [State.txdFrames, hidle, txText], fun s t w htx hw => ?frames, fun s hrun => ?ends⟩
  case frames =>
    have htext : txText s.console.tx = some t := by
      rcases htx with h | ⟨n, h, rfl⟩ | ⟨k, n, h, rfl⟩ <;> simp [h, txText]
    rw [txdFrames_sending htext, hw]
    exact ⟨rfl, rfl⟩
  case ends =>
    rw [exec_lineSent hrun]
    have hsilent : sendingResponse (lineEnded s) = false := rfl
    refine ⟨fun hidle => ?idle, fun n htx => ?notice, fun k n htx => ?lost, fun l x xs htx hr => ?more,
      fun l v htx hr hv hw hset => ?last, fun l v htx hr hv hw hset => ?settings, fun l v w htx hr hv hw => ?next⟩
    case idle =>
      rw [State.finishLine, hidle, State.kick_eq]
    case notice =>
      rw [State.finishLine, htx, State.kick_eq]
      dsimp only
      rw [State.endLine_eq]
    case lost =>
      rw [State.finishLine, htx, State.kick_eq]
      dsimp only
      rw [State.endLine_eq]
      rfl
    case more =>
      have hr' : (lineEnded s).response = some (x :: xs) := hr
      have hfinish : s.finishLine = { s with console := lineEnded s } := by
        simp only [State.finishLine, htx, State.endLine_eq, hr']
      rw [hfinish, State.kick_eq]
      have hchosen : settle (lineEnded s) = { lineEnded s with tx := .response x, response := some xs } :=
        (if_pos rfl).trans (chooseLine_response hr')
      exact congrArg (fun c : Console => Host.Outcome.next { s with console := c }) hchosen
    case last =>
      rw [State.finishLine_last htx hr, State.endService_alone (s := { s with console := lineEnded s }) hv hw, hset,
        State.serviceEnded_false (s := { s with console := lineEnded s }) hw, State.kick_eq]
    case settings =>
      rw [State.finishLine_last htx hr, State.endService_alone (s := { s with console := lineEnded s }) hv hw, hset,
        State.serviceEnded_true (s := { s with console := lineEnded s }) hw, State.kick_eq]
      rfl
    case next =>
      rw [State.finishLine_last htx hr, State.endService_next (s := { s with console := lineEnded s }) hv hw]
      obtain ⟨hwait, x, hx, hxl⟩ := served_next { s with console := lineEnded s } w v.settings
      refine ⟨_, x, rfl, hwait, hx, hxl, fun hset => ?_, fun hset => ?_⟩
      · rw [hset]
        exact enters_serveLine (s := State.serviceEnded { s with console := lineEnded s } false) hrun rfl rfl w
      · rw [hset]
        exact enters_serveLine (s := State.serviceEnded { s with console := lineEnded s } true) hrun rfl rfl w

end Sys2Proof.Machine
end

section
/-! PROOFS. The end of a console memory access, by its waiting party (R183 to R187, R149, R151). -/

namespace Sys2Proof.Machine

/-- A reply that follows changes outside the console port. -/
theorem replied_after {s u : State} (hn : sendingResponse s.console = false) (hu : u.console = s.console) (l : Line)
    (x : Text) (xs : List Text) (b : Bool) :
    (u.reply l (x :: xs) b).kick = { u with console := (u.reply l (x :: xs) b).kick.console } ∧
      Answered s (u.reply l (x :: xs) b).kick l [] (x :: xs) b := by
  rw [State.kick_eq]
  exact ⟨rfl, answered_of_reply (u := u) hn hu rfl⟩

/-! ### The preload port at its limit (R149) -/

theorem State.checkLimit_none {s : State} (h : s.ctrl.op ≠ .gated ∨ s.preloadWaits = true ∨ s.preload.offset < 65536) :
    s.checkLimit = s := by
  refine if_neg (fun hc => ?_)
  obtain ⟨hboth, hlimit⟩ := Bool.and_eq_true_iff.1 hc
  obtain ⟨hgated, hwaits⟩ := Bool.and_eq_true_iff.1 hboth
  rcases h with h | h | h
  · exact h (gated_of_preloading hgated)
  · simp [h] at hwaits
  · exact absurd (of_decide_eq_true hlimit) (Nat.not_le.2 h)

theorem State.checkLimit_due {s : State} (hop : s.ctrl.op = .gated) (hwaits : s.preloadWaits = false)
    (hlimit : 65536 ≤ s.preload.offset) : s.checkLimit = s.preloadFail .ps := by
  refine if_pos ?_
  simp only [State.preloading, hop, hwaits, beq_self_eq_true, Bool.not_false, Bool.and_self, Bool.true_and]
  exact decide_eq_true hlimit

theorem preloadFail_opened (s : State) (c : Code) : (s.preloadFail c).ctrl.op ≠ .gated := by
  have hop : (s.preloadFail c).ctrl.op = .bypass := rfl
  rw [hop]
  decide

/-- Preload that has failed is over (R151). -/
theorem State.checkLimit_failed (s : State) (c : Code) : (s.preloadFail c).checkLimit = s.preloadFail c :=
  State.checkLimit_none (.inl (preloadFail_opened s c))

/-! ### The access in hand ends (Table 9-2) -/

/-- Slot M changed, and the access in hand gone. -/
def State.handEmptied (s : State) (m : Option MAccess) : State :=
  { s with transit := { s.transit with slotM := m }, mem := { s.mem with inHand := none } }

/-- Slot M changed, the access in hand gone, and the cursor after the end of the access (R184 to R186). -/
def State.handEnded (s : State) (m : Option MAccess) (h : InHand) (e : AccessEnd) : State :=
  { s.handEmptied m with mem := (s.handEmptied m).mem.advance h e }

theorem State.handEnded_waits (s : State) (m : Option MAccess) (h : InHand) (e : AccessEnd) :
    (s.handEnded m h e).preloadWaits = false := by cases e <;> rfl

theorem endAnswer_ok (h : InHand) (d : Data) : ∃ x, endAnswer h (.ok d) = .lines [x] := by
  cases hc : h.command with
  | mr => exact ⟨_, by simp only [endAnswer, hc]; rfl⟩
  | mw => exact ⟨_, by simp only [endAnswer, hc]; rfl⟩

section
variable {s : State} {h : InHand} (m : Option MAccess) (e : AccessEnd) (hh : s.mem.inHand = some h)
include hh

theorem endAccess_console {v : Service} (hp : h.party = .console) (hv : s.console.inService = some v) :
    (s.setSlotM m).endAccess e = answerLine v.line (s.handEnded m h e, endAnswer h e) := by
  have hh' : (s.setSlotM m).mem.inHand = some h := hh
  simp only [State.endAccess, hh', hp]
  have hv' : (s.handEnded m h e).console.inService = some v := hv
  exact (by simp only [State.answerInService, hv'] :
    (s.handEnded m h e).answerInService (endAnswer h e) = answerLine v.line (s.handEnded m h e, endAnswer h e))

theorem endAccess_preload (hp : h.party = .preload) :
    (s.setSlotM m).endAccess e = (preloadDone (s.handEnded m h e, endAnswer h e)).checkLimit := by
  have hh' : (s.setSlotM m).mem.inHand = some h := hh
  simp only [State.endAccess, hh', hp]
  rfl

theorem endAccess_nobody (hp : h.party = .nobody) : (s.setSlotM m).endAccess e =
    if s.lineExecutes then (s.handEmptied m).endService else s.handEmptied m := by
  have hh' : (s.setSlotM m).mem.inHand = some h := hh
  simp only [State.endAccess, hh', hp]
  rfl

/-- A console line that still executes gets its answer (R183). -/
theorem ended_console {v : Service} (hp : h.party = .console) (hv : s.console.inService = some v)
    (hn : sendingResponse s.console = false) {x : Text}
    (hx : ∀ u, answerLine v.line (u, endAnswer h e) = u.reply v.line [x] false) :
    ((s.setSlotM m).endAccess e).kick = { s.handEnded m h e with console := ((s.setSlotM m).endAccess e).kick.console } ∧
      Answered s ((s.setSlotM m).endAccess e).kick v.line [] [x] := by
  rw [endAccess_console m e hh hp hv, hx]
  exact replied_after (u := s.handEnded m h e) hn rfl v.line x [] false

/-- A preload line whose access succeeded is counted, and preload goes on below the limit (R148). -/
theorem ended_preload_ok (hp : h.party = .preload) (hop : s.ctrl.op = .gated) {ls : List Text}
    (ha : endAnswer h e = .lines ls) (hlimit : s.preload.offset < 65536) :
    ((s.setSlotM m).endAccess e).kick = { s.handEnded m h e with
      preload := { s.preload with lines := s.preload.lines + 1 }, console := settle s.console } := by
  have hdone : preloadDone (s.handEnded m h e, endAnswer h e) = (s.handEnded m h e).countLine := by
    rw [ha]
    exact State.preloadCounted_gated (s := s.handEnded m h e) hop
  have hlow : (s.handEnded m h e).countLine.preload.offset < 65536 := hlimit
  rw [endAccess_preload m e hh hp, hdone, State.checkLimit_none (.inr (.inr hlow)), State.kick_eq]
  rfl

/-- At the limit preload then ends with PS (R149). -/
theorem ended_preload_limit (hp : h.party = .preload) (hop : s.ctrl.op = .gated) {ls : List Text}
    (ha : endAnswer h e = .lines ls) (hlimit : 65536 ≤ s.preload.offset) :
    ((s.setSlotM m).endAccess e).kick = preloadErrorEnd (s.handEnded m h e).countLine .ps := by
  have hdone : preloadDone (s.handEnded m h e, endAnswer h e) = (s.handEnded m h e).countLine := by
    rw [ha]
    exact State.preloadCounted_gated (s := s.handEnded m h e) hop
  have hwaits : (s.handEnded m h e).countLine.preloadWaits = false := s.handEnded_waits m h e
  rw [endAccess_preload m e hh hp, hdone, State.checkLimit_due (s := (s.handEnded m h e).countLine) hop hwaits hlimit,
    State.kick_eq, preloadFail_eq hwaits]

/-- An access that failed ends preload with its code (R151). -/
theorem ended_preload_failed (hp : h.party = .preload) {c : Code} (ha : endAnswer h e = .refused c) :
    ((s.setSlotM m).endAccess e).kick = preloadErrorEnd (s.handEnded m h e) c := by
  have hdone : preloadDone (s.handEnded m h e, endAnswer h e) = (s.handEnded m h e).preloadFail c := by rw [ha]; rfl
  rw [endAccess_preload m e hh hp, hdone, State.checkLimit_failed, State.kick_eq, preloadFail_eq (s.handEnded_waits m h e)]

/-- The result of an abandoned access is discarded (R187). -/
theorem ended_nobody (hp : h.party = .nobody) (hx : s.lineExecutes = false) :
    ((s.setSlotM m).endAccess e).kick = { s.handEmptied m with console := settle s.console } := by
  rw [endAccess_nobody m e hh hp, hx, State.kick_eq]
  rfl

section
variable {v : Service} (hp : h.party = .nobody) (hv : s.console.inService = some v) (hstage : v.stage = .executing)
include hp hv hstage

theorem endAccess_abandoned : (s.setSlotM m).endAccess e = (s.handEmptied m).endService := by
  rw [endAccess_nobody m e hh hp, if_pos (by simp [State.lineExecutes, hv, hstage])]

/-- A line that a break had abandoned then ends its service (R187). -/
theorem ended_abandoned (hset : v.settings = false) (hw : s.console.waiting = none) :
    ((s.setSlotM m).endAccess e).kick = { s.handEmptied m with
      console := settle { s.console with inService := none, response := none } } := by
  rw [endAccess_abandoned m e hh hp hv hstage, State.endService_alone (s := s.handEmptied m) hv hw, hset,
    State.serviceEnded_false (s := s.handEmptied m) hw, State.kick_eq]
  rfl

/-- And a line that waits enters service (R161, R187). -/
theorem ended_next (hrun : s.running) {w : Line} (hw : s.console.waiting = some w) :
    ((s.setSlotM m).endAccess e).kick.console.waiting = none ∧
    (∃ x, ((s.setSlotM m).endAccess e).kick.console.inService = some x ∧ x.line = w) ∧
    (v.settings = false → sendingResponse s.console = false → Enters { s.handEmptied m with
      console := { s.console with inService := none, waiting := none, response := none } }
      ((s.setSlotM m).endAccess e).kick w) := by
  rw [endAccess_abandoned m e hh hp hv hstage, State.endService_next (s := s.handEmptied m) hv hw]
  obtain ⟨hwait, hline⟩ := served_next (s.handEmptied m) w v.settings
  refine ⟨hwait, hline, fun hset hn => ?_⟩
  rw [hset]
  exact enters_serveLine (s := (s.handEmptied m).serviceEnded false) hrun rfl hn w

end

end

/-! ### Far responses and far timeouts of slot M -/

theorem State.takeFarResponse_issuedM {s : State} {r : FarResponse} {m : MAccess} (ht : r.tag.val = 16)
    (hm : s.transit.slotM = some m) (hi : m.state = .issued) :
    s.takeFarResponse r = (s.setSlotM none).endAccess (if r.ok then .ok r.lanes else .error) := by
  simp only [State.takeFarResponse_slotM s ht, State.farToSlotM, hm, hi]

/-- Settles O20: the end of the access in hand for each waiting party. -/
theorem farResponseSlotM : Obligations.FarResponseSlotM := by
  unfold Obligations.FarResponseSlotM
  intro s r m h hrun hpulse ht hm hi hh
  have hexec : exec (.farResponse r) s =
      .next ((s.setSlotM none).endAccess (if r.ok then .ok r.lanes else .error)).kick := by
    rw [exec_farResponse hrun hpulse, State.takeFarResponse_issuedM ht hm hi, State.kick_eq]
  rw [hexec]
  refine ⟨fun v hp hv hn => ?console, fun hp hop hlimit hok => ?limit, fun hp hop hok => ?failed,
    fun hp hop hlimit hok => ?counted, fun hp hx => ?discarded, fun v hp hv hstage hset hw => ?abandoned,
    fun v w hp hv hstage hw => ?next⟩
  case console =>
    refine ⟨_, rfl, fun hok => ?_, fun hok => ?_⟩
    · rw [if_pos hok]
      cases hcmd : h.command with
      | mr =>
        exact ended_console none (.ok r.lanes) hh hp hv hn
          (x := fields '=' [hexWord h.addr, hexData h.size (maskData h.size r.lanes)])
          (fun u => by simp only [endAnswer, hcmd]; rfl)
      | mw =>
        exact ended_console none (.ok r.lanes) hh hp hv hn (x := fields '=' [hexWord h.addr])
          (fun u => by simp only [endAnswer, hcmd]; rfl)
    · rw [if_neg (by simp [hok])]
      exact ended_console none .error hh hp hv hn (x := ['?', 'F', 'E']) (fun u => rfl)
  case limit =>
    obtain ⟨x, hx⟩ := endAnswer_ok h r.lanes
    rw [if_pos hok, ended_preload_limit none (.ok r.lanes) hh hp hop hx hlimit]
    rfl
  case failed =>
    rw [if_neg (by simp [hok]), ended_preload_failed none .error hh hp rfl]
    rfl
  case counted =>
    obtain ⟨x, hx⟩ := endAnswer_ok h r.lanes
    rw [if_pos hok, ended_preload_ok none (.ok r.lanes) hh hp hop hx hlimit]
    rfl
  case discarded =>
    rw [ended_nobody none _ hh hp hx]
    rfl
  case abandoned =>
    rw [ended_abandoned none _ hh hp hv hstage hset hw]
    rfl
  case next =>
    obtain ⟨hwait, ⟨x, hx, hxl⟩, henters⟩ :=
      ended_next none (if r.ok then .ok r.lanes else .error) hh hp hv hstage hrun hw
    exact ⟨_, x, rfl, hwait, hx, hxl, henters⟩

theorem exec_slotMFarTimeout {s : State} (h : s.running) : exec .slotMFarTimeout s =
    .next (if s.farExpiryDueM then s.timeOutM else s).kick := by
  change s.event (fun s => if s.farExpiryDueM then s.timeOutM else s) = _
  rw [State.event_running h, State.kick_eq]

/-- Settles O24: the end of the access in hand for each waiting party, when it is due. -/
theorem slotMFarTimeout : Obligations.SlotMFarTimeout := by
  unfold Obligations.SlotMFarTimeout
  refine fun s hrun => ⟨fun m h hm hi hdue hh => ?due, fun hnone => ?notDue⟩
  case notDue =>
    have hno : s.farExpiryDueM = false := by
      cases hm : s.transit.slotM with
      | none => simp [State.farExpiryDueM, hm]
      | some m =>
        have := hnone m hm
        simpa [State.farExpiryDueM, hm] using this
    rw [exec_slotMFarTimeout hrun, hno, State.kick_eq]
    rfl
  case due =>
    have hexec : exec .slotMFarTimeout s =
        .next ((s.setSlotM (some { m with state := .orphan, farTimer := none })).endAccess .timeout).kick := by
      rw [exec_slotMFarTimeout hrun, if_pos (by simp [State.farExpiryDueM, hm, hi, hdue]), State.timeOutM, hm]
      rfl
    rw [hexec]
    refine ⟨fun v hp hv hn => ?console, fun hp hop => ?failed, fun hp hx => ?discarded,
      fun v hp hv hstage hset hw => ?abandoned, fun v w hp hv hstage hw => ?next⟩
    case console =>
      obtain ⟨hframe, hans⟩ := ended_console (some { m with state := .orphan, farTimer := none }) .timeout hh hp hv hn
        (x := ['?', 'F', 'T']) (fun u => rfl)
      exact ⟨_, rfl, hframe, hans⟩
    case failed =>
      rw [ended_preload_failed _ .timeout hh hp rfl]
      rfl
    case discarded =>
      rw [ended_nobody _ _ hh hp hx]
      rfl
    case abandoned =>
      rw [ended_abandoned _ _ hh hp hv hstage hset hw]
      rfl
    case next =>
      obtain ⟨hwait, ⟨x, hx, hxl⟩, henters⟩ :=
        ended_next (some { m with state := .orphan, farTimer := none }) .timeout hh hp hv hstage hrun hw
      exact ⟨_, x, rfl, hwait, hx, hxl, henters⟩

end Sys2Proof.Machine
end

section
/-! PROOFS. The preload stream, byte by byte (R146 to R151). -/

namespace Sys2Proof.Machine

/-! ### One byte -/

/-- The state with the stream read one byte further (R147). -/
def State.readOn (s : State) : State := { s with preload := { s.preload with offset := s.preload.offset + 1 } }

/-- The state with this line in the preload port (R148). -/
def State.lineIs (s : State) (a : Assembly) (atStart : Bool) : State :=
  { s with preload := { s.preload with line := a, atStart := atStart } }

theorem Serves.runs {s : State} (h : Serves s .preload) : s.running := h.1

theorem Serves.gated {s : State} (h : Serves s .preload) : s.ctrl.op = .gated := gated_of_serves_preload h rfl

theorem Serves.unwaiting {s : State} (h : Serves s .preload) : s.preloadWaits = false := by
  obtain ⟨-, -, hwaits⟩ := h
  exact hwaits

theorem exec_byteEvent {s : State} (h : s.running) (b : Byte) : exec (.byteEvent b) s = .next (s.readByte b).kick := by
  change s.event (fun s => s.readByte b) = _
  rw [State.event_running h, State.kick_eq]

theorem State.readByte_none {s : State} (b : Byte)
    (h : s.ctrl.op ≠ .gated ∨ s.preloadWaits = true ∨ 65536 ≤ s.preload.offset) : s.readByte b = s := by
  refine if_neg (fun hc => ?_)
  obtain ⟨hboth, hlimit⟩ := Bool.and_eq_true_iff.1 hc
  obtain ⟨hgated, hwaits⟩ := Bool.and_eq_true_iff.1 hboth
  rcases h with h | h | h
  · exact h (gated_of_preloading hgated)
  · simp [h] at hwaits
  · exact absurd (of_decide_eq_true hlimit) (Nat.not_lt.2 h)

theorem State.readByte_serves {s : State} (b : Byte) (h : Serves s .preload) (hlimit : s.preload.offset < 65536) :
    s.readByte b = (s.readOn.takeStreamByte b).checkLimit := by
  obtain ⟨-, hop, hwaits⟩ := h
  refine if_pos ?_
  simp only [State.preloading, hop, hwaits, beq_self_eq_true, Bool.not_false, Bool.and_self, Bool.true_and]
  exact decide_eq_true hlimit

/-- The byte 00h or FFh at the start of a line (R150). -/
def EndsStream (s : State) (b : Byte) : Prop := s.preload.atStart = true ∧ (b = 0x00 ∨ b = 0xFF)

theorem endsStream_iff (s : State) (b : Byte) :
    (s.preload.atStart && (b == 0x00 || b == 0xFF)) = true ↔ EndsStream s b := by simp [EndsStream]

section
variable {s : State} {b : Byte}

theorem State.takeStreamByte_end (h : EndsStream s b) : s.takeStreamByte b = s.preloadEnd .bypass :=
  if_pos ((endsStream_iff s b).2 h)

variable (hend : ¬ EndsStream s b)
include hend

theorem State.takeStreamByte_lf (hb : b = 0x0A) : s.takeStreamByte b = s :=
  (if_neg (mt (endsStream_iff s b).1 hend)).trans (if_pos hb)

theorem State.takeStreamByte_cr (hb : b = 0x0D) : s.takeStreamByte b =
    preloadDone (interpret .preload s.preload.line.mark s.preload.line.text (s.lineIs Assembly.empty true)) := by
  subst hb
  exact (if_neg (mt (endsStream_iff s _).1 hend)).trans ((if_neg (by decide)).trans (if_pos rfl))

theorem State.takeStreamByte_esc (hb : b = 0x1B) : s.takeStreamByte b = s.lineIs Assembly.empty true := by
  subst hb
  exact (if_neg (mt (endsStream_iff s _).1 hend)).trans
    ((if_neg (by decide)).trans ((if_neg (by decide)).trans (if_pos rfl)))

theorem State.takeStreamByte_take (hlf : b ≠ 0x0A) (hcr : b ≠ 0x0D) (hesc : b ≠ 0x1B) :
    s.takeStreamByte b = s.lineIs (s.preload.line.take b) false :=
  (if_neg (mt (endsStream_iff s b).1 hend)).trans ((if_neg hlf).trans ((if_neg hcr).trans (if_neg hesc)))

/-- A byte that ends neither preload nor a line changes the line being assembled alone. -/
theorem State.takeStreamByte_line (hcr : b ≠ 0x0D) : ∃ a st, s.takeStreamByte b = s.lineIs a st := by
  by_cases hlf : b = 0x0A
  · exact ⟨s.preload.line, s.preload.atStart, State.takeStreamByte_lf hend hlf⟩
  · by_cases hesc : b = 0x1B
    · exact ⟨_, _, State.takeStreamByte_esc hend hesc⟩
    · exact ⟨_, _, State.takeStreamByte_take hend hlf hcr hesc⟩

end

section
variable {s : State} {b : Byte} (hs : Serves s .preload)
include hs

/-- A byte below the limit that changes the line being assembled alone. -/
theorem exec_byte_line {a : Assembly} {st : Bool} (hlimit : s.preload.offset < 65535)
    (h : s.readOn.takeStreamByte b = s.readOn.lineIs a st) :
    exec (.byteEvent b) s = .next { s.readOn.lineIs a st with console := settle s.console } := by
  have hlow : (s.readOn.lineIs a st).preload.offset < 65536 := Nat.succ_lt_succ hlimit
  rw [exec_byteEvent hs.runs, State.readByte_serves b hs (Nat.lt_succ_of_lt hlimit), h,
    State.checkLimit_none (.inr (.inr hlow)), State.kick_eq]
  rfl

/-- A byte at the limit that changes the line being assembled alone ends preload with PS (R149). -/
theorem exec_byte_limit {a : Assembly} {st : Bool} (hlimit : s.preload.offset = 65535)
    (h : s.readOn.takeStreamByte b = s.readOn.lineIs a st) :
    exec (.byteEvent b) s = .next (preloadErrorEnd { s with preload := { s.preload with offset := 65536 } } .ps) := by
  obtain ⟨hrun, hop, hwaits⟩ := hs
  have hover : 65536 ≤ (s.readOn.lineIs a st).preload.offset := Nat.succ_le_succ (Nat.le_of_eq hlimit.symm)
  have hend : preloadErrorEnd (s.readOn.lineIs a st) .ps =
      preloadErrorEnd { s with preload := { s.preload with offset := s.preload.offset + 1 } } .ps := rfl
  rw [exec_byteEvent hrun, State.readByte_serves b ⟨hrun, hop, hwaits⟩ (by omega), h,
    State.checkLimit_due (s := s.readOn.lineIs a st) hop hwaits hover, State.kick_eq,
    preloadFail_eq (s := s.readOn.lineIs a st) hwaits, hend, hlimit]

end

/-! ### A line completed by its CR -/

theorem endsStream_cr (s : State) : ¬ EndsStream s 0x0D := by
  rintro ⟨-, h | h⟩
  · exact absurd h (by decide)
  · exact absurd h (by decide)

/-- A line completed in the stream is executed (R148), and the limit is checked after it (R149). -/
theorem exec_byte_cr {s : State} (hs : Serves s .preload) (hlimit : s.preload.offset < 65536) :
    exec (.byteEvent 0x0D) s = .next (preloadDone (interpret .preload s.preload.line.mark s.preload.line.text
      (s.readOn.lineIs Assembly.empty true))).checkLimit.kick := by
  rw [exec_byteEvent hs.runs, State.readByte_serves _ hs hlimit, State.takeStreamByte_cr (endsStream_cr _) rfl]
  rfl

theorem State.preloadSettings_preload (s : State) : s.preloadSettings.preload = s.preload := by
  unfold State.preloadSettings
  split_ifs <;> rfl

theorem State.preloadCounted_offset (s : State) : s.preloadCounted.preload.offset = s.preload.offset := by
  unfold State.preloadCounted
  dsimp only
  split_ifs <;> rfl

/-- The end of a line leaves the offset of the stream. -/
theorem preloadDone_offset (r : State × Answer) : (preloadDone r).preload.offset = r.1.preload.offset := by
  unfold preloadDone
  cases r.2 with
  | lines ls => exact State.preloadCounted_offset _
  | settings t =>
    dsimp only
    rw [State.preloadCounted_offset, State.preloadSettings_preload]
  | refused c => rfl
  | begun => rfl

theorem State.preloadCounted_tx (s : State) : s.preloadCounted.console.tx = s.console.tx := by
  unfold State.preloadCounted
  dsimp only
  split_ifs
  · rfl
  · exact offerNotice_tx _ _ _

theorem State.preloadSettings_tx (s : State) : s.preloadSettings.console.tx = s.console.tx := by
  unfold State.preloadSettings
  split_ifs <;> rfl

/-- The end of a line leaves what is being sent. -/
theorem preloadDone_tx (r : State × Answer) : (preloadDone r).console.tx = r.1.console.tx := by
  unfold preloadDone
  cases r.2 with
  | lines ls => exact State.preloadCounted_tx _
  | settings t =>
    dsimp only
    rw [State.preloadCounted_tx, State.preloadSettings_tx]
  | refused c => exact offerNotice_tx _ _ _
  | begun => rfl

theorem NoticesApart.tx {c d : Console} (h : NoticesApart c d) : d.tx = c.tx := (congrArg Console.tx h :)

/-- A port that is idle after it has chosen had nothing to choose. -/
theorem settle_eq_of_idle {c : Console} (h : (settle c).tx = .idle) : settle c = c := by
  unfold settle at h ⊢
  split_ifs at h ⊢ with hidle
  · by_cases hr : ∃ l ls, c.response = some (l :: ls)
    · obtain ⟨l, ls, hr⟩ := hr
      rw [chooseLine_response hr] at h
      cases h
    · have hr : ∀ l ls, c.response ≠ some (l :: ls) := fun l ls hc => hr ⟨l, ls, hc⟩
      by_cases hn : c.notices = []
      · exact chooseLine_none hr hn
      · obtain ⟨n, ns, hn⟩ := List.exists_cons_of_ne_nil hn
        rw [chooseLine_notice hr hn] at h
        split_ifs at h
  · rfl

/-- A port that sends what it sent before, and that comes to rest as that port rested, has not chosen. -/
theorem settle_eq_of_tx {c d : Console} (htx : d.tx = c.tx) (h : settle d = c) : settle d = d := by
  by_cases hidle : d.tx = .idle
  · exact settle_eq_of_idle (by rw [h, ← htx, hidle])
  · exact settle_of_sending hidle

theorem exec_row_serves {s : State} (hs : Serves s .preload) (v : Verb) (ops : List Token) :
    exec (verbRow v .preload ops) s = .next (preloadDone (runVerb v .preload ops s)).kick := by
  rw [exec_preload hs, State.kick_eq]

/-- Settles O50: the byte by its value and place, then the line by its tests. -/
theorem streamByte : Obligations.StreamByte := by
  unfold Obligations.StreamByte
  intro s b hrun
  have hline : ∀ (hs : Serves s .preload) (a : Assembly) (st : Bool), s.preload.offset < 65535 →
      s.readOn.takeStreamByte b = s.readOn.lineIs a st →
      exec (.byteEvent b) s = .next { s.readOn.lineIs a st with console := settle s.console } :=
    fun hs a st hlimit h => exec_byte_line hs hlimit h
  have hnot : ∀ x : Byte, x ≠ 0x00 → x ≠ 0xFF → b = x → ¬ EndsStream s.readOn b := by
    rintro x hzero hones rfl ⟨-, h | h⟩
    · exact hzero h
    · exact hones h
  refine ⟨fun hno => ?none, fun hs hlimit hstart hb => ?ended, fun hs hlimit hcr hend => ?limit,
    fun hs hlimit => ⟨fun hb => ?lf, fun hb => ?esc, fun hb => ?backspace, fun hlow hhigh => ?printable,
      fun hrange hbs hlf hcr hesc hend => ?other⟩,
    fun hs hlimit hb => ⟨fun m hm => ?marked, fun hm htok => ⟨fun hlow => ?empty, fun hlast => ?emptyLast⟩,
      fun w ws hm htok hw => ?noVerb, fun w ws v u hm htok hw hu => ?verb⟩⟩
  case none => rw [exec_byteEvent hrun, State.readByte_none b hno, State.kick_eq]
  case ended =>
    have hends : EndsStream s.readOn b := ⟨hstart, hb⟩
    have hopen : (s.readOn.preloadEnd .bypass).ctrl.op ≠ .gated := by
      have hop : (s.readOn.preloadEnd .bypass).ctrl.op = .bypass := rfl
      rw [hop]
      decide
    rw [exec_byteEvent hrun, State.readByte_serves b hs hlimit, State.takeStreamByte_end hends,
      State.checkLimit_none (.inl hopen), State.kick_eq]
    rfl
  case limit =>
    obtain ⟨a, st, h⟩ := State.takeStreamByte_line (s := s.readOn) hend hcr
    exact exec_byte_limit hs hlimit h
  case lf =>
    exact hline hs _ _ hlimit (State.takeStreamByte_lf (hnot 0x0A (by decide) (by decide) hb) hb)
  case esc =>
    exact hline hs _ _ hlimit (State.takeStreamByte_esc (hnot 0x1B (by decide) (by decide) hb) hb)
  case backspace =>
    have h := State.takeStreamByte_take (hnot 0x08 (by decide) (by decide) hb) (by rw [hb]; decide) (by rw [hb]; decide)
      (by rw [hb]; decide)
    rw [hb, Assembly.take_backspace, ← hb] at h
    exact hline hs _ _ hlimit h
  case printable =>
    have hne : ∀ x : Byte, (x.toNat < 0x20 ∨ 0x7E < x.toNat) → b ≠ x := by
      rintro x hx rfl
      omega
    have hend : ¬ EndsStream s.readOn b := by
      rintro ⟨-, h | h⟩
      · exact hne _ (by decide) h
      · exact hne _ (by decide) h
    have hprint : printable b = true := (printable_iff _).2 ⟨hlow, hhigh⟩
    have h := State.takeStreamByte_take hend (hne _ (by decide)) (hne _ (by decide)) (hne _ (by decide))
    by_cases hroom : s.preload.line.text.length < 72 ∧ s.preload.line.mark ≠ some .ll
    · have htake : s.readOn.preload.line.take b = _ := Assembly.take_room hprint hroom
      rw [htake] at h
      rw [if_pos hroom]
      exact hline hs _ _ hlimit h
    · have htake : s.readOn.preload.line.take b = _ := Assembly.take_full hprint hroom
      rw [htake] at h
      rw [if_neg hroom]
      exact hline hs _ _ hlimit h
  case other =>
    have hprint : ¬ printable b = true := by
      rw [printable_iff]
      omega
    have h := State.takeStreamByte_take (s := s.readOn) hend hlf hcr hesc
    rw [Assembly.take_other hprint hbs] at h
    exact hline hs _ _ hlimit h
  all_goals subst hb
  case marked =>
    rw [exec_byte_cr hs hlimit, hm, interpret_marked]
    have hdone : preloadDone (s.readOn.lineIs Assembly.empty true, .refused (markCode m)) =
      (s.readOn.lineIs Assembly.empty true).preloadFail (markCode m) := rfl
    have hwaits : (s.readOn.lineIs Assembly.empty true).preloadWaits = false := hs.unwaiting
    rw [hdone, State.checkLimit_failed, State.kick_eq, preloadFail_eq hwaits]
    cases m <;> rfl
  case empty =>
    have hcount := State.preloadCounted_gated (s := s.readOn.lineIs Assembly.empty true) hs.gated
    have hdone : preloadDone (s.readOn.lineIs Assembly.empty true, answerBare) = _ := hcount
    have hbelow : (s.readOn.lineIs Assembly.empty true).countLine.preload.offset < 65536 := Nat.succ_lt_succ hlow
    rw [exec_byte_cr hs hlimit, hm, interpret_spaces .preload htok, hdone, State.checkLimit_none (.inr (.inr hbelow)),
      State.kick_eq]
    rfl
  case emptyLast =>
    have hcount := State.preloadCounted_gated (s := s.readOn.lineIs Assembly.empty true) hs.gated
    have hdone : preloadDone (s.readOn.lineIs Assembly.empty true, answerBare) = _ := hcount
    have hwaits : (s.readOn.lineIs Assembly.empty true).countLine.preloadWaits = false := hs.unwaiting
    have hover : 65536 ≤ (s.readOn.lineIs Assembly.empty true).countLine.preload.offset :=
      Nat.succ_le_succ (Nat.le_of_eq hlast.symm)
    have hend : preloadErrorEnd (s.readOn.lineIs Assembly.empty true).countLine .ps = preloadErrorEnd
      { s with preload := { s.preload with offset := s.preload.offset + 1, lines := s.preload.lines + 1 } } .ps := rfl
    rw [exec_byte_cr hs hlimit, hm, interpret_spaces .preload htok, hdone,
      State.checkLimit_due (s := (s.readOn.lineIs Assembly.empty true).countLine) hs.gated hwaits hover, State.kick_eq,
      preloadFail_eq hwaits, hend, hlast]
  case noVerb =>
    have hdone : preloadDone (s.readOn.lineIs Assembly.empty true, .refused .uv) =
      (s.readOn.lineIs Assembly.empty true).preloadFail .uv := rfl
    have hwaits : (s.readOn.lineIs Assembly.empty true).preloadWaits = false := hs.unwaiting
    rw [exec_byte_cr hs hlimit, hm, interpret_noVerb .preload htok hw, hdone, State.checkLimit_failed, State.kick_eq,
      preloadFail_eq hwaits]
    rfl
  case verb =>
    have hstate : s.readOn.lineIs Assembly.empty true = u := hu.symm
    have hserves : Serves u .preload := by
      rw [← hstate]
      exact hs
    have hconsole : u.console = s.console := by
      rw [← hstate]
      rfl
    have hoffset : (preloadDone (runVerb v .preload ws u)).preload.offset = s.preload.offset + 1 := by
      rw [preloadDone_offset, runVerb_preload, ← hstate]
      rfl
    have htx : (preloadDone (runVerb v .preload ws u)).console.tx = s.console.tx := by
      rw [preloadDone_tx, (runVerb_noticesApart v .preload ws u).tx, hconsole]
    refine ⟨_, exec_row_serves hserves v ws, ?_⟩
    rw [exec_byte_cr hs hlimit, hm, interpret_verb .preload htok hw, hstate]
    generalize preloadDone (runVerb v .preload ws u) = d at hoffset htx
    rw [State.kick_eq d]
    refine ⟨fun hgo => ?_, fun hlast hop hwaits => ?_⟩
    · have hnone : d.ctrl.op ≠ .gated ∨ d.preloadWaits = true ∨ d.preload.offset < 65536 := by
        rcases hgo with h | h | h
        · exact .inr (.inr (by omega))
        · exact .inl h
        · exact .inr (.inl h)
      rw [State.checkLimit_none hnone, State.kick_eq]
    · have hop : d.ctrl.op = .gated := hop
      have hwaits : d.preloadWaits = false := hwaits
      refine ⟨_, rfl, ?_⟩
      rw [State.checkLimit_due hop hwaits (by omega), State.kick_eq, preloadFail_eq hwaits]
      refine ⟨rfl, fun hsame hset => ?_⟩
      have hrest : settle d.console = d.console := settle_eq_of_tx htx hsame
      change consoleAfter d [.plEr (d.preload.lines + 1) .ps] = _
      rw [hrest]

/-! ### A line read byte by byte -/

/-- The state with this text of a line read from the stream, after this many bytes. -/
def State.streaming (s : State) (k : Nat) (t : Text) : State :=
  { s with preload := { s.preload with offset := k, line := { text := t, mark := none }, atStart := false } }

/-- A character of a line, taken into the line that stands in the port. -/
theorem exec_stream_char {s : State} (hs : Serves s .preload) (hset : settle s.console = s.console)
    (hlimit : s.preload.offset < 65535) {c : Char} (hc : LineChar c) {t : Text}
    (hline : s.preload.line = { text := t, mark := none }) (hroom : t.length < 72) :
    exec (.byteEvent (BitVec.ofNat 8 c.toNat)) s = .next (s.streaming (s.preload.offset + 1) (t ++ [c])) := by
  have hend : ¬ EndsStream s.readOn (BitVec.ofNat 8 c.toNat) := by
    rintro ⟨-, h | h⟩
    · exact hc.ne (by decide) h
    · have hbyte := hc.byte
      obtain ⟨-, hhigh⟩ := hc
      rw [h] at hbyte
      have hones : (0xFF : Byte).toNat = 255 := rfl
      omega
  have h := State.takeStreamByte_take hend (hc.ne (by decide)) (hc.ne (by decide)) (hc.ne (by decide))
  have htake : s.readOn.preload.line.take (BitVec.ofNat 8 c.toNat) = { text := t ++ [c], mark := none } := by
    have hsame : s.readOn.preload.line = { text := t, mark := none } := hline
    rw [hsame, Assembly.take_room hc.printable ⟨hroom, by simp⟩, hc.char]
  rw [htake] at h
  rw [exec_byte_line hs hlimit h, hset]
  rfl

theorem execAll_streaming {s : State} (hs : Serves s .preload) (hset : settle s.console = s.console) (t pre : Text) (k : Nat)
    (ht : ∀ c ∈ t, LineChar c) (hroom : pre.length + t.length ≤ 72) (hlimit : k + t.length < 65536) :
    execAll (t.map (fun c => .byteEvent (BitVec.ofNat 8 c.toNat))) (s.streaming k pre) =
      .next (s.streaming (k + t.length) (pre ++ t)) := by
  induction t generalizing pre k with
  | nil => simp [execAll]
  | cons c cs ih =>
    obtain ⟨hc, hcs⟩ := List.forall_mem_cons.1 ht
    rw [List.length_cons] at hroom hlimit
    have hone : exec (.byteEvent (BitVec.ofNat 8 c.toNat)) (s.streaming k pre) = .next (s.streaming (k + 1) (pre ++ [c])) :=
      exec_stream_char (s := s.streaming k pre) hs hset (show k < 65535 by omega) hc rfl (by omega)
    rw [List.map_cons, execAll, hone]
    dsimp only
    rw [ih (pre ++ [c]) (k + 1) hcs (by simp only [List.length_append, List.length_singleton]; omega) (by omega),
      List.append_assoc, List.singleton_append, List.length_cons, Nat.add_assoc, Nat.add_comm 1]

/-- Settles O49: the bytes are stored, and the CR executes the line below the limit. -/
theorem streamedLineIsCommand : Obligations.StreamedLineIsCommand := by
  unfold Obligations.StreamedLineIsCommand
  intro v ops s hs hline hstart hset hops hlimit
  have hchars := lineText_chars v hops
  have hroom := lineText_room v hops
  have hrow := exec_row_serves (s := { s with preload := { s.preload with
    offset := s.preload.offset + (lineText v ops).length + 1 } }) hs v ops
  rw [hrow, streamed, List.map_append, List.map_singleton]
  generalize htext : lineText v ops = text at hchars hroom hlimit
  obtain ⟨c, cs, rfl⟩ : ∃ c cs, text = c :: cs := by
    refine List.exists_cons_of_ne_nil (fun h => ?_)
    have hlen := congrArg List.length htext
    rw [h, lineText, List.length_append, verbText_length] at hlen
    simp at hlen
  obtain ⟨hc, hcs⟩ := List.forall_mem_cons.1 hchars
  rw [List.length_cons] at hlimit hroom
  rw [List.map_cons, List.cons_append, execAll, exec_stream_char hs hset (by omega) hc hline (by decide), List.nil_append]
  dsimp only
  rw [execAll_append (execAll_streaming hs hset cs [c] (s.preload.offset + 1) hcs (by simpa [Nat.add_comm] using hroom)
    (by omega)), execAll_singleton, List.singleton_append]
  have hbyte : BitVec.ofNat 8 (Char.ofNat 13).toNat = (0x0D : Byte) := by decide
  have hcr := exec_byte_cr (s := s.streaming (s.preload.offset + 1 + cs.length) (c :: cs)) hs
    (show s.preload.offset + 1 + cs.length < 65536 by omega)
  have hmark : (s.streaming (s.preload.offset + 1 + cs.length) (c :: cs)).preload.line.mark = none := rfl
  have hsame : (s.streaming (s.preload.offset + 1 + cs.length) (c :: cs)).preload.line.text = lineText v ops := htext.symm
  rw [hmark, hsame, interpret_lineText .preload v hops] at hcr
  have hstate : (s.streaming (s.preload.offset + 1 + cs.length) (c :: cs)).readOn.lineIs Assembly.empty true =
      { s with preload := { s.preload with offset := s.preload.offset + (c :: cs).length + 1 } } := by
    have hempty : Assembly.empty = s.preload.line := hline.symm
    have hcount : s.preload.offset + (c :: cs).length + 1 = s.preload.offset + 1 + cs.length + 1 := by
      rw [List.length_cons]
      omega
    rw [hempty, ← hstart, hcount]
    rfl
  rw [hstate] at hcr
  have hbelow : (preloadDone (runVerb v .preload ops { s with preload := { s.preload with
      offset := s.preload.offset + (c :: cs).length + 1 } })).preload.offset < 65536 := by
    rw [preloadDone_offset, runVerb_preload, List.length_cons]
    exact hlimit
  rw [hbyte, hcr, State.checkLimit_none (.inr (.inr hbelow))]

end Sys2Proof.Machine
end

section
/-! PROOFS. A break on the console port and on preload (R152, R156, R174, R178, R187). -/

namespace Sys2Proof.Machine

/-- The state with no line being assembled or waiting, and the overrun flag clear (R156, steps 1 and 2). -/
def State.linesDropped (s : State) : State :=
  { s with console := { s.console with assembling := none, waiting := none, overrun := false } }

theorem exec_breakEvent {s : State} (h : s.running) :
    exec .breakEvent s = .next ((s.linesDropped.suppress.raise .bk).breakPreload).kick := by
  change s.event (fun s => s.breakConsole.breakPreload) = _
  rw [State.event_running h, State.kick_eq]
  rfl

theorem State.breakPreload_opened {s : State} (h : s.ctrl.op ≠ .gated) : s.breakPreload = s :=
  if_neg (fun hc => h (gated_of_preloading hc))

theorem State.breakPreload_gated {s : State} (h : s.ctrl.op = .gated) : s.breakPreload = s.preloadFail .ab :=
  if_pos (by rw [State.preloading, h]; rfl)

/-- A break outside GATED, once the response of the line IN SERVICE has been suppressed. -/
theorem exec_break_opened {s u : State} (hrun : s.running) (hu : s.linesDropped.suppress = u) (hop : u.ctrl.op ≠ .gated) :
    exec .breakEvent s = .next { u with console := consoleAfter u [.bk] } := by
  rw [exec_breakEvent hrun, hu, State.breakPreload_opened (s := u.raise .bk) hop, State.kick_eq]
  rfl

/-- A break in GATED, which ends preload. -/
theorem exec_break_gated {s u : State} (hrun : s.running) (hu : s.linesDropped.suppress = u) (hop : u.ctrl.op = .gated) :
    exec .breakEvent s = .next { preloadErrorEnd u .ab with
      mem := { u.mem with inHand := u.mem.inHand.map (fun h =>
        if h.party = .preload then { h with party := .nobody } else h) }
      console := consoleAfter u [.bk, .plEr (u.preload.lines + 1) .ab] } := by
  rw [exec_breakEvent hrun, hu, State.breakPreload_gated (s := u.raise .bk) hop, State.kick_eq]
  rfl

/-! ### The response of the line IN SERVICE (R156, step 3) -/

section
variable {s : State}

theorem suppress_none (h : s.console.inService = none) : s.linesDropped.suppress = s.linesDropped := by
  have h' : s.linesDropped.console.inService = none := h
  simp only [State.suppress, h']

variable {v : Service} (hv : s.console.inService = some v)
include hv

theorem suppress_executing (hs : v.stage = .executing) : s.linesDropped.suppress = s.linesDropped.abandon .console := by
  have hv' : s.linesDropped.console.inService = some v := hv
  simp only [State.suppress, hv', hs]

theorem suppress_sending (hs : v.stage = .responding) (hn : sendingResponse s.console = true) :
    s.linesDropped.suppress = { s.linesDropped with console := { s.linesDropped.console with response := some [] } } := by
  have hv' : s.linesDropped.console.inService = some v := hv
  have hn' : sendingResponse s.linesDropped.console = true := hn
  simp only [State.suppress, hv', hs, hn', if_true]

theorem suppress_silent (hs : v.stage = .responding) (hn : sendingResponse s.console = false) :
    s.linesDropped.suppress = s.linesDropped.serviceEnded v.settings := by
  have hv' : s.linesDropped.console.inService = some v := hv
  have hn' : sendingResponse s.linesDropped.console = false := hn
  simp only [State.suppress, hv', hs, hn', Bool.false_eq_true, if_false]
  exact State.endService_alone hv' rfl

end

/-! ### The line being sent (R174, R176) -/

/-- The same line is being sent, under the same settings. -/
structure SameSent (s t : State) : Prop where
  tx       : t.console.tx = s.console.tx
  settings : t.console.txSettings = s.console.txSettings

theorem SameSent.trans {s t u : State} (h : SameSent s t) (k : SameSent t u) : SameSent s u :=
  ⟨k.tx.trans h.tx, k.settings.trans h.settings⟩

theorem SameSent.frames {s t : State} (h : SameSent s t) : t.txdFrames = s.txdFrames ∧ t.txdRate = s.txdRate := by
  unfold State.txdFrames State.txdRate
  rw [h.tx, h.settings]
  exact ⟨rfl, rfl⟩

theorem sameSent_raise (s : State) (n : Notice) : SameSent s (s.raise n) := by
  have hrest := offerNotice_rest s.ctrl.params.quiet n s.console
  refine ⟨offerNotice_tx _ _ _, ?_⟩
  exact (congrArg Console.txSettings hrest :)

theorem sameSent_kick {s : State} (h : s.console.tx ≠ .idle) : SameSent s s.kick := by
  rw [State.kick_eq, settle_of_sending h]
  exact ⟨rfl, rfl⟩

theorem sameSent_serviceEnded {s : State} (h : s.console.tx ≠ .idle) (b : Bool) : SameSent s (s.serviceEnded b) := by
  cases b with
  | false => exact ⟨rfl, rfl⟩
  | true => exact ⟨rfl, s.takeSettings_txSettings h⟩

theorem sameSent_suppress {s : State} (h : s.console.tx ≠ .idle) : SameSent s s.linesDropped.suppress := by
  cases hv : s.console.inService with
  | none =>
    rw [suppress_none hv]
    exact ⟨rfl, rfl⟩
  | some v =>
    cases hs : v.stage with
    | executing =>
      rw [suppress_executing hv hs]
      exact ⟨rfl, rfl⟩
    | responding =>
      cases hn : sendingResponse s.console with
      | true =>
        rw [suppress_sending hv hs hn]
        exact ⟨rfl, rfl⟩
      | false =>
        rw [suppress_silent hv hs hn]
        have hdropped : SameSent s s.linesDropped := ⟨rfl, rfl⟩
        exact hdropped.trans (sameSent_serviceEnded (s := s.linesDropped) h v.settings)

/-- The state in which preload has ended with an error, before it tells so (R151). -/
def State.preloadOver (s : State) : State :=
  { (s.entriesOff.recordsInvalid.enter .bypass).abandon .preload with preload := s.preload.lineStart }

theorem sameSent_breakPreload (s : State) : SameSent s s.breakPreload := by
  unfold State.breakPreload
  split_ifs
  · have hover : SameSent s s.preloadOver := ⟨rfl, rfl⟩
    exact hover.trans (sameSent_raise s.preloadOver (.plEr (s.preload.lines + 1) .ab))
  · exact ⟨rfl, rfl⟩

theorem sameSent_break {s : State} (h : s.console.tx ≠ .idle) :
    SameSent s ((s.linesDropped.suppress.raise .bk).breakPreload).kick := by
  have hbroken := ((sameSent_suppress h).trans (sameSent_raise _ .bk)).trans (sameSent_breakPreload _)
  exact hbroken.trans (sameSent_kick (by rw [hbroken.tx]; exact h))

/-- Settles O51: the break by the stage of the line IN SERVICE. -/
theorem breakAborts : Obligations.BreakAborts := by
  unfold Obligations.BreakAborts
  intro s hrun
  refine ⟨fun hop hv => ?_, fun v hop hv hs => ?_, fun v hop hv hs hn hset => ?_, fun v hop hv hs hn hset => ?_, fun htx => ?_,
    fun v hop hv hs hn => ?_, fun sv rs hop hcase => ?_⟩
  · rw [exec_break_opened hrun (suppress_none hv) hop]
    rfl
  · rw [exec_break_opened hrun (suppress_executing hv hs) hop]
    rfl
  · rw [exec_break_opened hrun (suppress_silent hv hs hn) (by rw [hset]; exact hop), hset]
    rfl
  · rw [exec_break_opened hrun (suppress_silent hv hs hn) (by rw [hset]; exact hop), hset]
    rfl
  · obtain ⟨hframes, hrate⟩ := (sameSent_break htx).frames
    exact ⟨_, exec_breakEvent hrun, hframes, hrate⟩
  · rw [exec_break_opened hrun (suppress_sending hv hs hn) hop]
    rfl
  · rcases hcase with ⟨hv, rfl, rfl⟩ | ⟨v, hv, hs, hset, hn, rfl, rfl⟩ | ⟨v, hv, hs, hn, rfl, rfl⟩
    · rw [exec_break_gated hrun (suppress_none hv) hop, ← hv]
      rfl
    · rw [exec_break_gated hrun (suppress_silent hv hs hn) (by rw [hset]; exact hop), hset]
      rfl
    · rw [exec_break_gated hrun (suppress_sending hv hs hn) hop, ← hv]
      rfl

end Sys2Proof.Machine
end
